-- ==== Sys2Proof/Word.lean ====
section
/-! DEFINITION. Words of the part: bytes, tick values, small number types, and their plainest arithmetic. -/

namespace Sys2Proof

/-- One character of a link (R143, R152). -/
abbrev Byte := BitVec 8

/-- The level of a link line in one bit time (R152): true is the idle level, which is also that of a stop bit and of a data bit 1
(PRESUMED: log 36). -/
abbrev Level := Bool

/-- A value of the tick counter, and a deadline (R25, R29): 16 bits, wrapping. -/
abbrev Tick := BitVec 16

/-- An interval in ticks, 1 to 32767 wherever the part stores one (R27). -/
abbrev Interval := BitVec 16

/-- A call reference (R5): 1 to 65535 in a record. -/
abbrev CallRef := BitVec 16

/-- A decimal digit string: caller digits (R5), or an extension number compared as a string (R115). -/
abbrev Digits := List (Fin 10)

/-- One of the four positions P0 to P3 (R67). -/
abbrev Pos := Fin 4

/-- One of the six loops of a position (R71); L1 is 0. -/
abbrev LoopNo := Fin 6

/-- One of the 128 slots of the Call Table (R1). -/
abbrev Slot := Fin 128

/-- One of the sixteen tenants (R5). -/
abbrev TenantNo := Fin 16

/-- One of the twenty park orbits 00 to 19 (R110). -/
abbrev OrbitNo := Fin 20

/-- The two bytes of a number sent most significant byte first (R150). -/
def Byte.pair (hi lo : Byte) : BitVec 16 := hi ++ lo

end Sys2Proof
end

