-- ==== Sys2Proof/Config.lean ====
section
/-! DEFINITION. What the manual fixes for the part as a whole: capacities (chapter 1.6 of the scope file) and the default
settings. The manual leaves no value open that a step computes with, so there is no free value here (log 31). -/

namespace Sys2Proof.Config

/-- The send window holds at most 8 entries (R127). -/
def windowPlaces : Nat := 8

/-- A position's key buffer holds up to 2 key messages (R73). -/
def keyPlaces : Nat := 2

/-- A transmit queue holds at most 4 tone entries (R156). -/
def tonePlaces : Nat := 4

/-- The camp-on table has 16 entries (R115). -/
def campEntries : Nat := 16

/-- A camp-on list holds up to 4 calls (R101, R115). -/
def campPlaces : Nat := 4

/-- The fixed tone repeat interval (R160). -/
def toneRepeat : Interval := 30

/-- A rank above this is taken as this (R41). -/
def rankCeiling : Nat := 255

/-- The recall term of the rank (R41). -/
def recallTerm : Nat := 40

/-- Aging steps stay at 15 (R9, R39). -/
def agingCeiling : Fin 16 := 15

/-- The longest and shortest interval (R27). -/
def maxInterval : Nat := 32767

/-- The ASCII space, 0x20. -/
def space : Byte := 0x20

/-- Default aging interval of a tenant (R147). -/
def defaultAging : Interval := 100

/-- Default aging weight of a tenant (R147). -/
def defaultWeight : Nat := 2

end Sys2Proof.Config
end

