-- ==== Sys2Proof/Syntax.lean ====
section
/-! DEFINITION. The commands of the part: one constructor for each row of spec/opcode_table.json. -/

namespace Sys2Proof

/-- The two kinds of link (chapter 1.2 of the scope file): the exchange link and the link of one position. -/
inductive Link where
  | exchange
  | position (p : Pos)
  deriving DecidableEq, Repr

/-- The fifteen keys of a console (R153, KEY layout). -/
inductive KeyKind where
  | opening | closing | withdraw | resume | review | answerNext | pickup
  | loop | release | hold | park | extend | cancel | camp | clear
  deriving DecidableEq, Repr

/-- Loop byte and argument of a key message, kept as received (R154): the loop byte, the digit count byte and the six
digit bytes. -/
structure KeyArgs where
  loop : Byte
  count : Byte
  digits : List Byte
  deriving DecidableEq, Repr

/-- A key message (R154). -/
structure KeyMsg where
  kind : KeyKind
  args : KeyArgs
  deriving DecidableEq, Repr

/-- The commands. A message of the exchange link carries its frame's body (R143, R153); a key row carries the key
message's loop and argument as received (R154); an expiry row names what it times (R31). -/
inductive Instr where
  /-- RESET: a RESET pin event, with the straps and the PCAR levels found at its release (R151). -/
  | reset (poseq : BitVec 2) (xrate : Bool) (pcar : BitVec 4)
  /-- TICK: an advance of the tick counter, with the PCAR levels found at it (R25, R155). -/
  | tick (pcar : BitVec 4)
  /-- AGING_EXPIRY (R39). -/
  | agingExpiry (i : Slot)
  /-- OFFER_EXPIRY (R55). -/
  | offerExpiry (i : Slot)
  /-- HOLD_RECALL_EXPIRY (R83). -/
  | holdRecallExpiry (i : Slot)
  /-- ESCALATE_EXPIRY (R84). -/
  | escalateExpiry (i : Slot)
  /-- NO_ANSWER_EXPIRY (R121). -/
  | noAnswerExpiry (i : Slot)
  /-- CAMP_TIMEOUT_EXPIRY (R119). -/
  | campTimeoutExpiry (i : Slot)
  /-- PARK_RECALL_EXPIRY (R114). -/
  | parkRecallExpiry (i : Slot)
  /-- ORDER_TIMEOUT (R136). -/
  | orderTimeout
  /-- RETRY_DEADLINE_EXPIRY of the order list entry of a slot (R134). -/
  | retryDeadlineExpiry (i : Slot)
  /-- NIGHT_DELAY_EXPIRY (R63). -/
  | nightDelayExpiry
  /-- TONE_REPEAT_EXPIRY of a position (R160). -/
  | toneRepeatExpiry (p : Pos)
  /-- FRAME_BYTE_TIMEOUT at a link interface (R144). -/
  | frameByteTimeout (l : Link)
  /-- FRAME_ERROR at a link interface: a bad length or a failing check (R144). -/
  | frameError (l : Link)
  /-- CARRIER_LOSS at a position (R69, R155). -/
  | carrierLoss (p : Pos)
  /-- CARRIER_RETURN at a position (R69, R155). -/
  | carrierReturn (p : Pos)
  /-- LINK_UP (R141, R142). -/
  | linkUp (body : List Byte)
  /-- RESTART (R142). -/
  | restart (body : List Byte)
  /-- ARRIVE (R12, R13). -/
  | arrive (body : List Byte)
  /-- CLEARED (R16). -/
  | cleared (body : List Byte)
  /-- DEST_STATE with the state ANSWERED (R96, R17). -/
  | destStateAnswered (body : List Byte)
  /-- DEST_STATE with the state DEST_CLEARED (R96). -/
  | destStateDestCleared (body : List Byte)
  /-- EXT_FREE (R117). -/
  | extFree (body : List Byte)
  /-- RESPONSE with the outcome DONE (R130). -/
  | responseDone (body : List Byte)
  /-- RESPONSE with the outcome REFUSED (R131). -/
  | responseRefused (body : List Byte)
  /-- RESPONSE with the outcome RETRY (R133). -/
  | responseRetry (body : List Byte)
  /-- PAUSE (R135). -/
  | pause (body : List Byte)
  /-- RESUME (R135). -/
  | resume (body : List Byte)
  /-- TENANT_SET (R147). -/
  | tenantSet (body : List Byte)
  /-- TIMING_SET (R148). -/
  | timingSet (body : List Byte)
  /-- POSITION_SET (R149). -/
  | positionSet (body : List Byte)
  /-- STATUS_QUERY (R150). -/
  | statusQuery (body : List Byte)
  /-- KEY: a frame of a position link that passed its check, with its type byte and body (R145, R154, R73). -/
  | key (p : Pos) (typ : Byte) (body : List Byte)
  /-- The Open key (R68). -/
  | openKey (p : Pos) (a : KeyArgs)
  /-- The Close key (R68). -/
  | closeKey (p : Pos) (a : KeyArgs)
  /-- The Withdraw key (R68). -/
  | withdrawKey (p : Pos) (a : KeyArgs)
  /-- The Resume key (R68). -/
  | resumeKey (p : Pos) (a : KeyArgs)
  /-- The Review key (R164). -/
  | reviewKey (p : Pos) (a : KeyArgs)
  /-- The Answer Next key (R57, R76). -/
  | answerNextKey (p : Pos) (a : KeyArgs)
  /-- The Pickup key (R76). -/
  | pickupKey (p : Pos) (a : KeyArgs)
  /-- The Loop key (R77). -/
  | loopKey (p : Pos) (a : KeyArgs)
  /-- The Release key (R80, R98, R99). -/
  | releaseKey (p : Pos) (a : KeyArgs)
  /-- The Hold key (R79). -/
  | holdKey (p : Pos) (a : KeyArgs)
  /-- The Park key (R81). -/
  | parkKey (p : Pos) (a : KeyArgs)
  /-- The Extend key (R93). -/
  | extendKey (p : Pos) (a : KeyArgs)
  /-- The Cancel key (R100, R101). -/
  | cancelKey (p : Pos) (a : KeyArgs)
  /-- The Camp key (R101). -/
  | campKey (p : Pos) (a : KeyArgs)
  /-- The Clear key (R82). -/
  | clearKey (p : Pos) (a : KeyArgs)
  /-- ORDER_SEND (R127). -/
  | orderSend
  /-- POSITION_FRAME_SEND: the line of a position is free (R156). -/
  | positionFrameSend (p : Pos)
  /-- UNKNOWN_MESSAGE_TYPE: a frame of the exchange link whose type is no inbound exchange type (R145). -/
  | unknownMessageType (typ : Byte) (body : List Byte)
  deriving DecidableEq, Repr

end Sys2Proof
end

