-- ==== Sys2Proof/Decode.lean ====
section
/-! DEFINITION. Reading commands: the word interface of the host (the table gives no bits, log 25), the type codes of the
messages (R150), the command that a frame spells (R145), and the fields of every inbound body (R149, R150, R153). -/

namespace Sys2Proof

/-- The command a word spells by the bits of spec/opcode_table.json. The table gives bits for no row (98_reader.md), so no
word spells a command (log 25). -/
def decodeTableWord (_nbits _w : Nat) : Option Instr := none

namespace Decode

/-! ### Type codes (R150) -/

def typeLinkUp : Byte := 0x01
def typeRestart : Byte := 0x02
def typeArrive : Byte := 0x03
def typeCleared : Byte := 0x04
def typeDestState : Byte := 0x05
def typeExtFree : Byte := 0x06
def typeResponse : Byte := 0x07
def typePause : Byte := 0x08
def typeResume : Byte := 0x09
def typeTenantSet : Byte := 0x0A
def typeTimingSet : Byte := 0x0B
def typePositionSet : Byte := 0x0C
def typeStatusQuery : Byte := 0x0D
def typeOrder : Byte := 0x21
def typeCallTaken : Byte := 0x22
def typeCallDeclined : Byte := 0x23
def typeStatusReply : Byte := 0x24
def typeNotice : Byte := 0x25
def typeKey : Byte := 0x31
def typeLamp : Byte := 0x32
def typeDisplay : Byte := 0x33
def typeTone : Byte := 0x34

/-! ### From a frame to its command (R145) -/

/-- The row of a DEST_STATE body: by its state byte; a body of another length or state goes to the first row, which
discards it (R145, log 10). -/
def destStateCommand (body : List Byte) : Instr :=
  if body.length = 3 ∧ body[2]? = some 2 then .destStateDestCleared body else .destStateAnswered body

/-- The row of a RESPONSE body: by its outcome byte; a body of another length or outcome goes to the first row, which
discards it (R128, R145, log 10). -/
def responseCommand (body : List Byte) : Instr :=
  if body.length = 5 ∧ body[3]? = some 2 then .responseRefused body
  else if body.length = 5 ∧ body[3]? = some 3 then .responseRetry body
  else .responseDone body

/-- The command of a frame of the exchange link that passed its check (R145, R150). -/
def exchangeCommand (typ : Byte) (body : List Byte) : Instr :=
  if typ = typeLinkUp then .linkUp body
  else if typ = typeRestart then .restart body
  else if typ = typeArrive then .arrive body
  else if typ = typeCleared then .cleared body
  else if typ = typeDestState then destStateCommand body
  else if typ = typeExtFree then .extFree body
  else if typ = typeResponse then responseCommand body
  else if typ = typePause then .pause body
  else if typ = typeResume then .resume body
  else if typ = typeTenantSet then .tenantSet body
  else if typ = typeTimingSet then .timingSet body
  else if typ = typePositionSet then .positionSet body
  else if typ = typeStatusQuery then .statusQuery body
  else .unknownMessageType typ body

/-- The command of a frame that passed its check on either kind of link. -/
def frameCommand : Link → Byte → List Byte → Instr
  | .exchange, typ, body => exchangeCommand typ body
  | .position p, typ, body => .key p typ body

/-! ### Bodies -/

/-- A message with no fields: a body of one byte, disregarded (R143). -/
def parseEmpty : List Byte → Option Unit
  | [_] => some ()
  | _ => none

/-- The fields of ARRIVE as carried (R153). -/
structure Arrival where
  ref : CallRef
  tenant : Byte
  prio : Byte
  origin : Byte
  digits : List Byte
  deriving DecidableEq, Repr

/-- The ARRIVE body: 6 bytes and as many digit bytes as the count says; a length that does not agree with the count is no
ARRIVE (R153). -/
def parseArrive : List Byte → Option Arrival
  | r1 :: r0 :: t :: c :: o :: n :: ds =>
    if ds.length = n.toNat then some ⟨Byte.pair r1 r0, t, c, o, ds⟩ else none
  | _ => none

/-- The CLEARED body: a call reference (R150). -/
def parseRef : List Byte → Option CallRef
  | [r1, r0] => some (Byte.pair r1 r0)
  | _ => none

/-- The DEST_STATE body: call reference and state byte (R150). -/
def parseDestState : List Byte → Option (CallRef × Byte)
  | [r1, r0, st] => some (Byte.pair r1 r0, st)
  | _ => none

/-- One counted digit: a value above 9 is malformed (R145). -/
def digit? (b : Byte) : Option (Fin 10) :=
  if h : b.toNat < 10 then some ⟨b.toNat, h⟩ else none

/-- The first bytes of a list as digits, all of them below 10 (R145). -/
def digits? : List Byte → Option Digits
  | [] => some []
  | b :: bs =>
    match digit? b, digits? bs with
    | some d, some ds => some (d :: ds)
    | _, _ => none

/-- An extension field of a count and six digit bytes (R150). Malformed (none): a count of 1 or above 6, or a counted digit
above 9 (R145). A count of 0 is an absent extension (R147); the bytes after the count are disregarded. -/
def parseExtension (count : Byte) (six : List Byte) : Option (Option Digits) :=
  if count = 0 then some none
  else if count.toNat = 1 ∨ 6 < count.toNat then none
  else (digits? (six.take count.toNat)).map some

/-- The EXT_FREE body of 7 bytes; its extension must be present (R145). -/
def parseExtFree (body : List Byte) : Option Digits :=
  match body with
  | n :: six => if six.length = 6 then (parseExtension n six).join else none
  | [] => none

/-- The fields of RESPONSE as carried (R153). -/
structure Reply where
  kind : Byte
  ref : CallRef
  outcome : Byte
  detail : Byte
  deriving DecidableEq, Repr

/-- The RESPONSE body of 5 bytes (R153). -/
def parseResponse : List Byte → Option Reply
  | [k, r1, r0, o, d] => some ⟨k, Byte.pair r1 r0, o, d⟩
  | _ => none

/-- The fields of TENANT_SET as carried, its extensions decoded (R153). -/
structure TenantWrite where
  tenant : TenantNo
  inService : Byte
  tag : List Byte
  classBase : Byte
  agingInterval : BitVec 16
  agingWeight : Byte
  overflowStep : Byte
  threshold : Byte
  overflowDest : Option Digits
  nightDest : Option Digits
  deriving DecidableEq, Repr

/-- The TENANT_SET body of 38 bytes (R153): a wrong length, a tenant above 15 or a malformed extension is no TENANT_SET
(R145). -/
def parseTenantSet (body : List Byte) : Option TenantWrite :=
  if body.length = 38 then
    match body with
    | t :: sv :: rest =>
      match rest.drop 16 with
      | cb :: a1 :: a0 :: w :: os :: th :: oc :: rest2 =>
        match rest2.drop 6 with
        | nc :: nsix =>
          if h : t.toNat < 16 then
            match parseExtension oc (rest2.take 6), parseExtension nc nsix with
            | some od, some nd =>
              some ⟨⟨t.toNat, h⟩, sv, rest.take 16, cb, Byte.pair a1 a0, w, os, th, od, nd⟩
            | _, _ => none
          else none
        | _ => none
      | _ => none
    | _ => none
  else none

/-- The nine intervals of TIMING_SET, in the order of R148, as carried. -/
def parseTimingSet : List Byte → Option (List (BitVec 16))
  | [a1, a0, b1, b0, c1, c0, d1, d0, e1, e0, f1, f0, g1, g0, h1, h0, i1, i0] =>
    some [Byte.pair a1 a0, Byte.pair b1 b0, Byte.pair c1 c0, Byte.pair d1 d0, Byte.pair e1 e0, Byte.pair f1 f0,
      Byte.pair g1 g0, Byte.pair h1 h0, Byte.pair i1 i0]
  | _ => none

/-- The fields of POSITION_SET (R149). -/
structure PositionWrite where
  pos : Pos
  tenantMask : BitVec 16
  latchMask : BitVec 11
  toneMask : BitVec 11
  deriving DecidableEq, Repr

/-- The POSITION_SET body of 7 bytes: the upper five bits of the latch and tone masks are disregarded (R149); a position
above 3 is no POSITION_SET (R145). -/
def parsePositionSet : List Byte → Option PositionWrite
  | [p, t1, t0, l1, l0, n1, n0] =>
    if h : p.toNat < 4 then
      some ⟨⟨p.toNat, h⟩, Byte.pair t1 t0, (Byte.pair l1 l0).setWidth 11, (Byte.pair n1 n0).setWidth 11⟩
    else none
  | _ => none

/-- The key kind of a key kind byte (R153). -/
def keyKind? (b : Byte) : Option KeyKind :=
  if b = 1 then some .opening
  else if b = 2 then some .closing
  else if b = 3 then some .withdraw
  else if b = 4 then some .resume
  else if b = 5 then some .review
  else if b = 6 then some .answerNext
  else if b = 7 then some .pickup
  else if b = 8 then some .loop
  else if b = 9 then some .release
  else if b = 10 then some .hold
  else if b = 11 then some .park
  else if b = 12 then some .extend
  else if b = 13 then some .cancel
  else if b = 14 then some .camp
  else if b = 15 then some .clear
  else none

/-- The KEY frame: type KEY, a body of 9 bytes, a listed key kind (R145); the loop and the argument are kept as received
(R154). -/
def parseKey (typ : Byte) (body : List Byte) : Option KeyMsg :=
  if typ = typeKey then
    match body with
    | [k, l, n, d0, d1, d2, d3, d4, d5] => (keyKind? k).map fun kind => ⟨kind, ⟨l, n, [d0, d1, d2, d3, d4, d5]⟩⟩
    | _ => none
  else none

end Decode

end Sys2Proof
end

