-- ==== Sys2Proof/Machine/State.lean ====
section
/-! DEFINITION. The state of the part as plain data, its reset, and the reasons a step can stop. -/

namespace Sys2Proof.Machine

/-! ### The Call Table (chapter 1) -/

/-- Where a recall came from (R6). -/
inductive RecallReason where
  | hold | park | camp | noAnswer | positionLost
  deriving DecidableEq, Repr

/-- NEW, or RECALL with its reason (R5: the reason is present only when the kind is RECALL). -/
inductive CallKind where
  | new
  | recall (r : RecallReason)
  deriving DecidableEq, Repr

/-- The caller condition of a rescue set member (R87). -/
inductive CallerCondition where
  | connected | split
  deriving DecidableEq, Repr

/-- What a rescue set member carries besides its slot (R87). -/
structure Rescue where
  failed : Pos
  condition : CallerCondition
  orbit : Option OrbitNo
  final : Bool
  deriving DecidableEq, Repr

/-- The location of a LIVE record (R10). The rescue set is the set of records at RESCUE, so the member's fields stand
here (log 16). -/
inductive Location where
  | queued
  | loop (p : Pos) (l : LoopNo)
  | parked (o : OrbitNo)
  | camped (ext : Digits)
  | extended (ext : Digits)
  | rescue (m : Rescue)
  deriving DecidableEq, Repr

/-- A claim: the loop that asks for the record, GRANTED or WAITING (R7, R19). -/
structure Claim where
  pos : Pos
  loop : LoopNo
  granted : Bool
  deriving DecidableEq, Repr

/-- The purposes of a record's timer (R9, R33). -/
inductive Purpose where
  | aging | offer | holdRecall | escalate | noAnswer | campTimeout | parkRecall
  deriving DecidableEq, Repr

/-- The timer field when present: armed, or spent (R33). -/
structure Timer where
  purpose : Purpose
  deadline : Tick
  spent : Bool
  deriving DecidableEq, Repr

/-- A call record (R5). The slot is the record's place in the table; `digits` empty says that ARRIVE carried none. -/
structure Record where
  ref : CallRef
  tenant : TenantNo
  prio : Fin 4
  digits : Digits
  kind : CallKind
  owner : Option Pos
  loc : Location
  mark : Option (Pos × LoopNo)
  claim : Option Claim
  dest : Option Digits
  step : Fin 7
  aging : Fin 16
  timer : Option Timer
  held : Option Purpose
  overflowSpent : Bool
  deriving DecidableEq, Repr

/-- The three slot states (R1): a RETIRING slot keeps only its call reference. -/
inductive SlotState where
  | free
  | live (r : Record)
  | retiring (ref : CallRef)
  deriving DecidableEq, Repr

/-! ### Orders (chapter 7) -/

/-- The ten order kinds with their arguments (R123). -/
inductive Order where
  | connect (p : Pos) (l : LoopNo)
  | hold
  | split
  | ringExt (ext : Digits)
  | dropDest
  | transfer
  | camp (ext : Digits)
  | retrieve
  | divert (ext : Digits)
  | release
  deriving DecidableEq, Repr

/-- The part's own mark on an entry (R92, R59). -/
inductive Mark where
  | none | screened | unscreened | overflow | night
  deriving DecidableEq, Repr

/-- The state of an order list entry, with its deadline (R124). `found` of a SENT entry: an advance has found its
response deadline expired while it stood at the head of the send window (R136, log 4). -/
inductive EntryState where
  | waiting
  | sent (deadline : Tick) (found : Bool)
  | resting (deadline : Tick)
  deriving DecidableEq, Repr

/-- An order list entry (R124). -/
structure Entry where
  slot : Slot
  ref : CallRef
  order : Order
  mark : Mark
  state : EntryState
  tries : Fin 4
  deriving DecidableEq, Repr

/-! ### Links (chapters 8 and 9) -/

/-- The link state (R139). -/
inductive LinkState where
  | down | up | failed
  deriving DecidableEq, Repr

/-- The night state (R61). -/
inductive NightState where
  | day | nightPending | night
  deriving DecidableEq, Repr

/-- The state of a position (R67). -/
inductive PosState where
  | absent | closed | opened | withdrawn | faulted
  deriving DecidableEq, Repr

/-- A frame receiver (R144): hunting for a start byte; a frame begun and its length awaited; or a frame of a given length
with the bytes received after the length byte. `idle` counts the advances of the tick counter since the last byte. -/
inductive Rx where
  | hunting
  | started (idle : Nat)
  | filling (len : Nat) (got : List Byte) (idle : Nat)
  deriving DecidableEq, Repr

/-- The reasons of CALL_DECLINED (R12). -/
inductive Decline where
  | invalid | tenant | duplicate | full
  deriving DecidableEq, Repr

/-- The kinds of NOTICE (R145). -/
inductive NoticeKind where
  | frameError | protocolError
  deriving DecidableEq, Repr

/-- The fields of STATUS_REPLY (R150). -/
structure Status where
  tick : Tick
  link : LinkState
  paused : Bool
  night : NightState
  positions : List PosState
  live : Nat
  retiring : Nat
  queued : Nat
  window : Nat
  deriving DecidableEq, Repr

/-- The messages to the exchange controller (R146). -/
inductive XMsg where
  | order (o : Order) (ref : CallRef)
  | callTaken (ref : CallRef) (i : Slot)
  | callDeclined (ref : CallRef) (why : Decline)
  | statusReply (st : Status)
  | notice (kind : NoticeKind) (typ : Byte) (ref : CallRef)
  deriving DecidableEq, Repr

/-- Lamp cadences (R153, LAMP layout). -/
inductive Cadence where
  | off | steady | slow | wink | fast | flicker
  deriving DecidableEq, Repr

/-- The three tones (R160). -/
inductive Tone where
  | ring | beep | error
  deriving DecidableEq, Repr

/-- The frames to a console (R153): a lamp by its index 0 to 8 (loop lamps 1-6, OPEN, ALERT, NIGHT), a display line, a tone. -/
inductive PosFrame where
  | lamp (k : Fin 9) (c : Cadence)
  | display (j : Fin 2) (text : List Byte)
  | tone (t : Tone)
  deriving DecidableEq, Repr

/-- The eleven items of a console picture (R156). -/
inductive Item where
  | lamp (k : Fin 9)
  | line (j : Fin 2)
  deriving DecidableEq, Repr

/-- An entry of a transmit queue (R156): an item, or a tone. `forced` marks an item queued by a carrier return, which is
sent whether or not it differs from the sent picture (R156, log 13). -/
inductive TxEntry where
  | item (it : Item) (forced : Bool)
  | tone (t : Tone)
  deriving DecidableEq, Repr

/-- A console picture (R156): nine lamps and two lines of 20 characters. -/
structure Picture where
  lamps : Vector Cadence 9
  lines : Vector (List Byte) 2
  deriving DecidableEq, Repr

/-! ### Positions (chapters 4 and 9) -/

/-- The eight loop states (R71), each but IDLE with the slot the loop refers to. -/
inductive LoopState where
  | idle
  | alerting (i : Slot)
  | connecting (i : Slot)
  | talk (i : Slot)
  | held (i : Slot)
  | recalling (i : Slot)
  | extend (i : Slot)
  | locked (i : Slot)
  deriving DecidableEq, Repr

/-- The eleven alert kinds, in the order of R149. -/
inductive AlertKind where
  | offer | holdRecall | destBusy | destUnobtainable | destAnswered | orderFailed | lockout | callerGone
  | queueThreshold | autoWithdrawn | exchangeDown
  deriving DecidableEq, Repr

/-- An entry of an alert list (R162): its kind, and its loop when the kind is loop-level. -/
structure Alert where
  kind : AlertKind
  loop : Option LoopNo
  deriving DecidableEq, Repr

/-- A display note (R159): the text of line 1 and the content of line 2. -/
structure Note where
  line1 : List Byte
  content : List Byte
  deriving DecidableEq, Repr

/-- A position: its Position Controller and its Position Link Interface. -/
structure Position where
  state : PosState
  loops : Vector LoopState 6
  keys : List KeyMsg
  alerts : List Alert
  note : Option Note
  tenantMask : BitVec 16
  latchMask : BitVec 11
  toneMask : BitVec 11
  toneRepeat : Option Tick
  carrier : Bool
  sent : Picture
  txq : List TxEntry
  pout : List PosFrame
  rx : Rx
  /-- The levels standing on the receive line PRXD, one for each bit time (R152, log 8). -/
  line : List Level
  deriving DecidableEq, Repr

/-! ### Holding places and tables -/

/-- The states of a park orbit (R110). -/
inductive Orbit where
  | empty
  | reserved (i : Slot)
  | occupied (i : Slot)
  deriving DecidableEq, Repr

/-- An entry in use of the camp-on table (R115). -/
structure CampEntry where
  ext : Digits
  calls : List Slot
  deriving DecidableEq, Repr

/-- A tenant table entry (R147). -/
structure Tenant where
  inService : Bool
  tag : List Byte
  classBase : Nat
  agingInterval : Interval
  agingWeight : Nat
  overflowStep : Nat
  overflowDest : Option Digits
  nightDest : Option Digits
  threshold : Nat
  deriving DecidableEq, Repr

/-- The timing table (R28, R148). -/
structure Timing where
  offer : Interval
  holdRecall : Interval
  escalation : Interval
  noAnswer : Interval
  camp : Interval
  parkRecall : Interval
  nightDelay : Interval
  retryDelay : Interval
  orderTimeout : Interval
  deriving DecidableEq, Repr

/-- The whole state. -/
structure State where
  /-- Commands that wait, first in, first out (log 2). -/
  pending : List Instr
  /-- R25. -/
  tick : Tick
  /-- R32. -/
  nightDelay : Option Tick
  /-- R1. -/
  slots : Vector SlotState 128
  /-- R43. -/
  queue : List Slot
  /-- R51. -/
  pointer : Pos
  /-- R61. -/
  night : NightState
  /-- R110. -/
  orbits : Vector Orbit 20
  /-- R115. -/
  camp : List CampEntry
  /-- R124. -/
  orders : List Entry
  /-- The send window: the slots of the SENT entries in the order they were sent (R127). -/
  window : List Slot
  /-- R135. -/
  paused : Bool
  /-- R139. -/
  link : LinkState
  /-- R147. -/
  tenants : Vector Tenant 16
  /-- R148. -/
  timing : Timing
  /-- R67. -/
  positions : Vector Position 4
  /-- POSEQ as sampled (R151). -/
  poseq : BitVec 2
  /-- XRATE as sampled (R151). -/
  xrate : Bool
  /-- The exchange link's receiver (R144). -/
  xrx : Rx
  /-- The levels standing on the exchange receive line XRXD, one for each bit time (R152, log 8). -/
  xline : List Level
  /-- Messages sent on the exchange link, in order (R146, log 19). -/
  xout : List XMsg
  deriving DecidableEq, Repr

/-! ### Reset values -/

/-- The default of every tenant table entry (R147). -/
def Tenant.initial : Tenant :=
  { inService := false, tag := List.replicate 16 Config.space, classBase := 0, agingInterval := Config.defaultAging,
    agingWeight := Config.defaultWeight, overflowStep := 0, overflowDest := none, nightDest := none, threshold := 0 }

/-- The defaults of the timing table (R28). -/
def Timing.initial : Timing :=
  { offer := 150, holdRecall := 300, escalation := 300, noAnswer := 250, camp := 600, parkRecall := 900,
    nightDelay := 100, retryDelay := 5, orderTimeout := 20 }

/-- The console's own start-up picture: every lamp OFF and both lines blank (R156). -/
def Picture.startup : Picture :=
  { lamps := Vector.replicate 9 .off, lines := Vector.replicate 2 (List.replicate 20 Config.space) }

/-- The default tone mask (R149): OFFER, HOLD_RECALL, LOCKOUT, QUEUE_THRESHOLD and EXCHANGE_DOWN, which are the kinds 0, 1, 6,
8 and 10 in the order of R149, kind 0 in the least significant bit. -/
def defaultToneMask : BitVec 11 := 0b10101000011

/-- Whether POSEQ equips a position (R151): the value n equips P0 to Pn. -/
def equippedBy (poseq : BitVec 2) (p : Pos) : Bool := decide (p.val ≤ poseq.toNat)

/-- The level of a position's PCAR pin among the four levels (R152: high when carrier is present). -/
def pcarLevel (pcar : BitVec 4) (p : Pos) : Bool := pcar.getLsbD p.val

/-- A position right after the release of RESET (R67, R73, R149, R156, R160). The transmit queue of an equipped position
holds the NIGHT lamp, the one item whose wanted value differs from the start-up picture. The carrier of an ABSENT position
is disregarded and kept LOST (log 20). -/
def Position.atReset (poseq : BitVec 2) (pcar : BitVec 4) (p : Pos) : Position :=
  { state := if equippedBy poseq p then (if pcarLevel pcar p then .closed else .faulted) else .absent
    loops := Vector.replicate 6 .idle
    keys := [], alerts := [], note := none
    tenantMask := BitVec.allOnes 16, latchMask := BitVec.allOnes 11, toneMask := defaultToneMask
    toneRepeat := none
    carrier := equippedBy poseq p && pcarLevel pcar p
    sent := Picture.startup
    txq := if equippedBy poseq p then [.item (.lamp 8) false] else []
    pout := [], rx := .hunting, line := [] }

/-- The part right after the release of RESET with the given straps and PCAR levels (R151). -/
def State.atReset (poseq : BitVec 2) (xrate : Bool) (pcar : BitVec 4) : State :=
  { pending := []
    tick := 0, nightDelay := none
    slots := Vector.replicate 128 .free
    queue := [], pointer := 0, night := .night
    orbits := Vector.replicate 20 .empty, camp := []
    orders := [], window := [], paused := false
    link := .down
    tenants := Vector.replicate 16 Tenant.initial, timing := Timing.initial
    positions := #v[Position.atReset poseq pcar 0, Position.atReset poseq pcar 1, Position.atReset poseq pcar 2,
      Position.atReset poseq pcar 3]
    poseq := poseq, xrate := xrate
    xrx := .hunting, xline := [], xout := [] }

/-- The machine after reset. DESIGN CHOICE, unsafe (log 1): the straps equip four positions (POSEQ 3), XRATE is 0 and all
four carriers are present, so every position is CLOSED; the command RESET takes any straps and carriers. -/
def State.reset : State := State.atReset 3 false 0xF

/-! ### Why a step stops -/

/-- Faults. The manual names nothing that stops the part, so there is none: nobody raises a fault, and that is exact
(log 31). -/
inductive Fault
  deriving DecidableEq, Repr

/-- Refusals. -/
inductive Refusal where
  /-- Raised by an arm of `exec` whose command has no meaning yet; safe. No arm raises it now. -/
  | notModelled (mnemonic : String)
  deriving DecidableEq, Repr

end Sys2Proof.Machine
end

