-- ==== Sys2Proof/Machine/Ops.lean ====
section
/-! DEFINITION. The named operations over the state: slots, positions and loops, deadlines and timers (chapter 2), and the
order list with its send window (chapter 7). -/

namespace Sys2Proof.Machine

/-! ### Slots, positions, loops -/

/-- The state of a slot (R1). -/
def State.slot (s : State) (i : Slot) : SlotState := s.slots[i]

/-- Gives a slot a new state. -/
def State.setSlot (s : State) (i : Slot) (x : SlotState) : State := { s with slots := s.slots.set i x }

/-- The LIVE record of a slot, if the slot is LIVE (R1). -/
def State.record? (s : State) (i : Slot) : Option Record :=
  match s.slot i with
  | .live r => some r
  | _ => none

/-- Changes the record of a LIVE slot; a slot that is not LIVE has no record to change (R1). -/
def State.updRec (s : State) (i : Slot) (f : Record → Record) : State :=
  match s.slot i with
  | .live r => s.setSlot i (.live (f r))
  | _ => s

/-- A position. -/
def State.pos (s : State) (p : Pos) : Position := s.positions[p]

/-- Changes a position. -/
def State.updPos (s : State) (p : Pos) (f : Position → Position) : State :=
  { s with positions := s.positions.set p (f (s.pos p)) }

/-- A loop of a position (R71). -/
def State.loop (s : State) (p : Pos) (l : LoopNo) : LoopState := (s.pos p).loops[l]

/-- Gives a loop a new state. -/
def Position.setLoop (q : Position) (l : LoopNo) (x : LoopState) : Position := { q with loops := q.loops.set l x }

/-- A tenant table entry (R147). -/
def State.tenant (s : State) (t : TenantNo) : Tenant := s.tenants[t]

/-- Whether a position is equipped (R67): every state but ABSENT. -/
def PosState.equipped : PosState → Bool
  | .absent => false
  | _ => true

/-- Whether a position is staffed (R67): OPEN or WITHDRAWN. -/
def PosState.staffed : PosState → Bool
  | .opened | .withdrawn => true
  | _ => false

/-- The four positions in order. -/
def allPos : List Pos := [0, 1, 2, 3]

/-- The six loops in order. -/
def allLoops : List LoopNo := [0, 1, 2, 3, 4, 5]

/-- Whether some position is staffed (R61). -/
def State.anyStaffed (s : State) : Bool := allPos.any fun p => (s.pos p).state.staffed

/-- The slot a loop refers to, if it is not IDLE (R71). -/
def LoopState.slot? : LoopState → Option Slot
  | .idle => none
  | .alerting i | .connecting i | .talk i | .held i | .recalling i | .extend i | .locked i => some i

/-- The position's lowest-numbered IDLE loop (R49, R76). -/
def State.lowestIdle (s : State) (p : Pos) : Option LoopNo := allLoops.find? fun l => s.loop p l == .idle

/-- An orbit (R110). -/
def State.orbit (s : State) (o : OrbitNo) : Orbit := s.orbits[o]

/-- Gives an orbit a new state. -/
def State.setOrbit (s : State) (o : OrbitNo) (x : Orbit) : State := { s with orbits := s.orbits.set o x }

/-! ### Deadlines (R29, R30, R34) -/

/-- The expiry test of R30: the deadline `d` has expired at the count `t`. -/
def expired (t d : Tick) : Bool := decide ((t - d).toNat < 32768)

/-- Arming from a previous deadline (R34): one interval after it, if that lies 1 to one interval ahead of the current
tick, and the next tick otherwise. -/
def rearmed (t base : Tick) (iv : Interval) : Tick :=
  let d := base + iv
  if 1 ≤ (d - t).toNat ∧ (d - t).toNat ≤ iv.toNat then d else t + 1

/-- An interval as it is stored: clamped to 1-32767 (R27). -/
def clampInterval (v : BitVec 16) : Interval :=
  if v = 0 then 1 else if v.toNat ≤ Config.maxInterval then v else 32767

/-! ### The timer of a record (R33, R37) -/

/-- Arms a timer with a given deadline: it replaces whatever the field held and drops a held expiry (R33, R37). -/
def Record.armAt (r : Record) (pu : Purpose) (d : Tick) : Record :=
  { r with timer := some ⟨pu, d, false⟩, held := none }

/-- Disarms the timer, and drops a held expiry (R33, R37). -/
def Record.disarm (r : Record) : Record := { r with timer := none, held := none }

/-- Arms a timer from now (R29). -/
def State.armNow (s : State) (i : Slot) (pu : Purpose) (iv : Interval) : State :=
  s.updRec i fun r => r.armAt pu (s.tick + iv)

/-- Arms a timer from a previous deadline (R34). -/
def State.armFrom (s : State) (i : Slot) (pu : Purpose) (base : Tick) (iv : Interval) : State :=
  s.updRec i fun r => r.armAt pu (rearmed s.tick base iv)

/-- Arms AGING from now with the tenant's interval, or leaves the timer absent at 15 aging steps (R38). -/
def State.armAging (s : State) (i : Slot) : State :=
  s.updRec i fun r =>
    if r.aging < Config.agingCeiling then r.armAt .aging (s.tick + (s.tenant r.tenant).agingInterval) else r.disarm

/-! ### The order list and the send window (R124 to R127) -/

/-- The order list entry of a slot (R1: at most one). -/
def State.entry? (s : State) (i : Slot) : Option Entry := s.orders.find? fun e => e.slot == i

/-- Whether the record of a slot has an order in flight: an entry in any state (R124). -/
def State.inFlight (s : State) (i : Slot) : Bool := s.orders.any fun e => e.slot == i

/-- Issues an order for a LIVE record: a new entry at the tail of the order list, WAITING, with no tries (R125). A record has
at most one entry (R1), so a record that has one gets no second (log 23). -/
def State.issue (s : State) (i : Slot) (o : Order) (m : Mark) : State :=
  match s.record? i with
  | some r => if s.inFlight i then s else { s with orders := s.orders ++ [⟨i, r.ref, o, m, .waiting, 0⟩] }
  | none => s

/-- Removes the entry of a slot from the order list and from the send window (R130, R126). -/
def State.dropEntry (s : State) (i : Slot) : State :=
  { s with orders := s.orders.filter fun e => e.slot != i, window := s.window.filter fun j => j != i }

/-- Gives the entry of a slot a new form, in its list place. -/
def State.updEntry (s : State) (i : Slot) (f : Entry → Entry) : State :=
  { s with orders := s.orders.map fun e => if e.slot = i then f e else e }

/-- Whether an entry is SENT. -/
def Entry.isSent (e : Entry) : Bool :=
  match e.state with
  | .sent _ _ => true
  | _ => false

/-- Whether an order is a CONNECT. -/
def Order.isConnect : Order → Bool
  | .connect _ _ => true
  | _ => false

/-- Sends a message on the exchange link, behind those sent before it (R146). -/
def State.transmit (s : State) (m : XMsg) : State := { s with xout := s.xout ++ [m] }

/-- Sends a PROTOCOL_ERROR notice (R145). -/
def State.protocolError (s : State) (typ : Byte) (ref : CallRef) : State :=
  s.transmit (.notice .protocolError typ ref)

/-- The entry at the head of the send window: the oldest SENT entry (R129). -/
def State.headEntry (s : State) : Option Entry := s.window.head?.bind s.entry?

/-- The oldest WAITING entry by list place (R127). -/
def State.oldestWaiting (s : State) : Option Entry := s.orders.find? fun e => e.state == .waiting

/-- Whether the pipeline may send: the link is UP, not paused, and the window holds fewer than 8 entries (R127). -/
def State.maySend (s : State) : Bool :=
  s.link == .up && !s.paused && decide (s.window.length < Config.windowPlaces)

/-- Sends one entry, the oldest WAITING one, if R127 allows: the ORDER message goes out, the entry becomes SENT with a
response deadline from now, and it joins the tail of the window. -/
def State.sendOne (s : State) : State :=
  if s.maySend then
    match s.oldestWaiting with
    | some e =>
      { s.updEntry e.slot (fun e' => { e' with state := .sent (s.tick + s.timing.orderTimeout) false }) with
        window := s.window ++ [e.slot]
        xout := s.xout ++ [.order e.order e.ref] }
    | none => s
  else s

/-- Sends entries until the window holds 8 or none is WAITING (R127): at most eight sendings, the window's places. -/
def State.sendOrders (s : State) : State := (List.replicate Config.windowPlaces ()).foldl (fun t _ => t.sendOne) s

end Sys2Proof.Machine
end

