-- ==== Sys2Proof/Machine/Flags.lean ====
section
/-! DEFINITION. Alerts and tones of a position: the masks (R149), sounding (R160), the alert list (R162, R163), and the loop
changes that touch the list. -/

namespace Sys2Proof.Machine

/-- The place of an alert kind in the order of R149, which is its bit in the masks. -/
def AlertKind.bit : AlertKind → Nat
  | .offer => 0
  | .holdRecall => 1
  | .destBusy => 2
  | .destUnobtainable => 3
  | .destAnswered => 4
  | .orderFailed => 5
  | .lockout => 6
  | .callerGone => 7
  | .queueThreshold => 8
  | .autoWithdrawn => 9
  | .exchangeDown => 10

/-- RING belongs to OFFER, BEEP to every other kind (R160). -/
def AlertKind.tone : AlertKind → Tone
  | .offer => .ring
  | _ => .beep

/-- Whether a kind is in a mask (R149). -/
def inMask (m : BitVec 11) (k : AlertKind) : Bool := m.getLsbD k.bit

/-- Whether a transmit queue entry is a tone. -/
def TxEntry.isTone : TxEntry → Bool
  | .tone _ => true
  | _ => false

/-- Sounds a tone: it joins the tail of the transmit queue, unless four tones stand there (R156). -/
def Position.sound (q : Position) (t : Tone) : Position :=
  if (q.txq.filter TxEntry.isTone).length < Config.tonePlaces then { q with txq := q.txq ++ [.tone t] } else q

/-- Whether an entry sounds: its kind is in the tone mask (R160). -/
def Position.sounding (q : Position) (a : Alert) : Bool := inMask q.toneMask a.kind

/-- The tone of the repeats: RING when an OFFER entry is among the sounding ones, BEEP otherwise (R160). -/
def Position.repeatTone (q : Position) : Tone :=
  if q.alerts.any fun a => q.sounding a && a.kind == .offer then .ring else .beep

/-- Removes entries from the alert list; when the last sounding entry leaves, the tone repeat deadline is disarmed (R160). -/
def Position.keepAlerts (q : Position) (keep : Alert → Bool) : Position :=
  { q with
    alerts := q.alerts.filter keep
    toneRepeat := if q.alerts.any q.sounding && !(q.alerts.filter keep).any q.sounding then none else q.toneRepeat }

/-- Removes the entry of a loop (R163). -/
def Position.dropLoopAlert (q : Position) (l : LoopNo) : Position := q.keepAlerts fun a => a.loop != some l

/-- Removes the entry of a loop if it has a given kind (R163). -/
def Position.dropKindAt (q : Position) (l : LoopNo) (k : AlertKind) : Position :=
  q.keepAlerts fun a => !(a.loop == some l && a.kind == k)

/-- Empties the alert list and disarms the tone repeat deadline, as Close and carrier loss do (R160, R163). -/
def Position.clearAlerts (q : Position) : Position := { q with alerts := [], toneRepeat := none }

/-- What sounding does when an entry is entered or changes kind (R160). -/
def Position.soundEntered (q : Position) (now : Tick) (k : AlertKind) : Position :=
  if inMask q.toneMask k then { q.sound k.tone with toneRepeat := some (now + Config.toneRepeat) } else q

/-- Whether an alert of this kind is entered: the position is OPEN or WITHDRAWN and the kind is in the latch mask (R162). -/
def Position.enters (q : Position) (k : AlertKind) : Bool := q.state.staffed && inMask q.latchMask k

/-- Raises a loop-level alert (R162): the loop's entry, or a new one, takes the kind and stands at the tail (log 14). -/
def Position.raiseLoop (q : Position) (now : Tick) (k : AlertKind) (l : LoopNo) : Position :=
  if q.enters k then
    Position.soundEntered { q with alerts := (q.alerts.filter fun a => a.loop != some l) ++ [⟨k, some l⟩] } now k
  else q

/-- Raises a position-level alert (R162): a new entry at the tail, or nothing when the kind has an entry. -/
def Position.raiseKind (q : Position) (now : Tick) (k : AlertKind) : Position :=
  if q.enters k && !q.alerts.any (fun a => a.kind == k) then
    Position.soundEntered { q with alerts := q.alerts ++ [⟨k, none⟩] } now k
  else q

/-- Raises a loop-level alert at a position. -/
def State.raiseLoop (s : State) (p : Pos) (k : AlertKind) (l : LoopNo) : State :=
  s.updPos p fun q => q.raiseLoop s.tick k l

/-- Raises a position-level alert at a position. -/
def State.raiseKind (s : State) (p : Pos) (k : AlertKind) : State := s.updPos p fun q => q.raiseKind s.tick k

/-- The error tone (R75, R160): no alert, and the tone mask does not silence it. -/
def State.errorTone (s : State) (p : Pos) : State := s.updPos p fun q => q.sound .error

/-- A loop becomes IDLE: its alert entry leaves the list (R163). -/
def State.loopIdle (s : State) (p : Pos) (l : LoopNo) : State :=
  s.updPos p fun q => (q.setLoop l .idle).dropLoopAlert l

/-- A loop becomes CONNECTING: an OFFER entry of the loop leaves the list (R163), and the display note is dropped (R159). -/
def State.loopConnecting (s : State) (p : Pos) (l : LoopNo) (i : Slot) : State :=
  s.updPos p fun q => { (q.setLoop l (.connecting i)).dropKindAt l .offer with note := none }

/-- Any other loop change. -/
def State.setLoop (s : State) (p : Pos) (l : LoopNo) (x : LoopState) : State := s.updPos p fun q => q.setLoop l x

/-- A tone mask write (R160): with no entry left sounding the deadline is disarmed; with an entry sounding and the deadline
unarmed, the tone is sounded at once and the deadline armed. -/
def Position.afterToneMask (q : Position) (now : Tick) : Position :=
  if q.alerts.any q.sounding then
    match q.toneRepeat with
    | some _ => q
    | none => { q.sound q.repeatTone with toneRepeat := some (now + Config.toneRepeat) }
  else { q with toneRepeat := none }

end Sys2Proof.Machine
end

