-- ==== Sys2Proof/Machine/Operands.lean ====
section
/-! DEFINITION. The operands of keys: which loop, orbit or extension a key message names and whether its argument is in range
(R75, R153), and the voice path a key needs (R72). -/

namespace Sys2Proof.Machine

/-- The eight loop keys; the other seven are position keys (R154). -/
def KeyKind.isLoopKey : KeyKind → Bool
  | .loop | .release | .hold | .park | .extend | .cancel | .camp | .clear => true
  | .opening | .closing | .withdraw | .resume | .review | .answerNext | .pickup => false

/-- The loop a loop byte names: 1 to 6 (R75). -/
def loopOf (b : Byte) : Option LoopNo :=
  if h : 1 ≤ b.toNat ∧ b.toNat ≤ 6 then some ⟨b.toNat - 1, by omega⟩ else none

/-- No argument: a digit count of 0 (R75). -/
def noArgument (a : KeyArgs) : Bool := a.count == 0

/-- An orbit argument: two digits, each at most 9, of a value at most 19 (R75, R153). -/
def orbitOf (a : KeyArgs) : Option OrbitNo :=
  if a.count = 2 then
    match Decode.digits? (a.digits.take 2) with
    | some [x, y] => if h : x.val * 10 + y.val < 20 then some ⟨x.val * 10 + y.val, h⟩ else none
    | _ => none
  else none

/-- A Park argument: an orbit, or none with a digit count of 0 (R81, R153). The outer none is an argument out of range. -/
def parkArgument (a : KeyArgs) : Option (Option OrbitNo) :=
  if a.count = 0 then some none else (orbitOf a).map some

/-- An Extend argument: 2 to 6 digits, each at most 9 (R75, R93). -/
def extensionOf (a : KeyArgs) : Option Digits :=
  if 2 ≤ a.count.toNat ∧ a.count.toNat ≤ 6 then
    match Decode.digits? (a.digits.take a.count.toNat) with
    | some ds => if ds.length = a.count.toNat then some ds else none
    | none => none
  else none

/-- Whether the argument of a key is in range for its kind (R75). -/
def argumentOk (k : KeyKind) (a : KeyArgs) : Bool :=
  match k with
  | .pickup => (orbitOf a).isSome
  | .park => (parkArgument a).isSome
  | .extend => (extensionOf a).isSome
  | _ => noArgument a

/-- Whether the loop byte is in range for the kind: 1 to 6 for a loop key, 0 for a position key (R75). -/
def loopOk (k : KeyKind) (a : KeyArgs) : Bool :=
  if KeyKind.isLoopKey k then (loopOf a.loop).isSome else a.loop == 0

/-- Whether a HELD or RECALLING loop is being retrieved: a CONNECT for its record is in the order list (R72). -/
def State.retrieved (s : State) (p : Pos) (l : LoopNo) : Bool :=
  match s.loop p l with
  | .held i | .recalling i => s.orders.any fun e => e.slot == i && e.order.isConnect
  | _ => false

/-- Whether a loop is in CONNECTING, TALK or EXTEND (R72). -/
def LoopState.onVoicePath : LoopState → Bool
  | .connecting _ | .talk _ | .extend _ => true
  | _ => false

/-- Whether a loop is in ALERTING. -/
def LoopState.isAlerting : LoopState → Bool
  | .alerting _ => true
  | _ => false

/-- Whether a loop holds the voice path, by its state or by a retrieval (R72). -/
def State.holdsVoice (s : State) (p : Pos) (l : LoopNo) : Bool := (s.loop p l).onVoicePath || s.retrieved p l

/-- The voice path is free for a key (R72). -/
def State.voiceFree (s : State) (p : Pos) : Bool := allLoops.all fun l => !s.holdsVoice p l

/-- No loop of the position is in ALERTING, CONNECTING, TALK or EXTEND (R49, R57). -/
def State.loopsQuiet (s : State) (p : Pos) : Bool :=
  allLoops.all fun l => !((s.loop p l).onVoicePath || (s.loop p l).isAlerting)

end Sys2Proof.Machine
end

