-- ==== Sys2Proof/Machine/Picture.lean ====
section
/-! DEFINITION. The console picture of a position: queued figure, lamps, display lines and notes (chapter 9), and the transmit
queue that keeps the console in step (R156). The wanted picture is a view of the state (log 16). -/

namespace Sys2Proof.Machine

/-- Characters of a text (R153: codes 0x20-0x7E). -/
def txt (cs : List Char) : List Byte := cs.map fun c => BitVec.ofNat 8 c.toNat

/-- A text left-aligned in n places and filled with spaces (R158). -/
def padTo (n : Nat) (t : List Byte) : List Byte := (t ++ List.replicate n Config.space).take n

/-- The character of a decimal digit. -/
def digitChar (n : Nat) : Byte := BitVec.ofNat 8 (48 + n % 10)

/-- A digit string as characters. -/
def digitChars (ds : Digits) : List Byte := ds.map fun d => digitChar d.val

/-- A number right-aligned in three places (R158). -/
def figure (n : Nat) : List Byte :=
  if n < 10 then [Config.space, Config.space, digitChar n]
  else if n < 100 then [Config.space, digitChar (n / 10), digitChar n]
  else [digitChar (n / 100), digitChar (n / 10), digitChar n]

/-- The tenant of a queued slot, if its record is LIVE. -/
def State.tenantOf (s : State) (i : Slot) : Option TenantNo := (s.record? i).map Record.tenant

/-- The queued count of a tenant (R45): the queued records of that tenant. -/
def State.queuedCount (s : State) (t : TenantNo) : Nat := (s.queue.filter fun i => s.tenantOf i == some t).length

/-- Whether a tenant is in a tenant mask (R149). -/
def covers (m : BitVec 16) (t : TenantNo) : Bool := m.getLsbD t.val

/-- The queued figure of a position: the queued counts of the tenants in its mask (R45, R158). -/
def State.queuedFigure (s : State) (p : Pos) : Nat :=
  (((List.finRange 16).filter fun t => covers (s.pos p).tenantMask t).map s.queuedCount).sum

/-! ### Lamps (R157) -/

/-- The cadence of a loop lamp. -/
def LoopState.cadence : LoopState → Cadence
  | .idle => .off
  | .alerting _ => .slow
  | .connecting _ => .steady
  | .talk _ => .steady
  | .held _ => .wink
  | .recalling _ => .fast
  | .extend _ => .steady
  | .locked _ => .flicker

/-- The cadence of the OPEN lamp. -/
def PosState.openLamp : PosState → Cadence
  | .opened => .steady
  | .withdrawn => .wink
  | _ => .off

/-- The wanted cadence of a lamp: loop lamps 1-6, OPEN, ALERT, NIGHT by index (R157). -/
def State.wantedLamp (s : State) (p : Pos) (k : Fin 9) : Cadence :=
  if h : k.val < 6 then (s.loop p ⟨k.val, h⟩).cadence
  else if k = 6 then (s.pos p).state.openLamp
  else if k = 7 then (if (s.pos p).alerts.isEmpty then .off else .steady)
  else (if s.night = .night then .steady else .off)

/-! ### Display (R158) -/

/-- The display text of an alert kind (R161). -/
def AlertKind.text : AlertKind → List Byte
  | .offer => txt ['O', 'F', 'F', 'E', 'R']
  | .holdRecall => txt ['H', 'O', 'L', 'D', ' ', 'R', 'E', 'C', 'A', 'L', 'L']
  | .destBusy => txt ['D', 'E', 'S', 'T', ' ', 'B', 'U', 'S', 'Y']
  | .destUnobtainable => txt ['U', 'N', 'O', 'B', 'T', 'A', 'I', 'N', 'A', 'B', 'L', 'E']
  | .destAnswered => txt ['D', 'E', 'S', 'T', ' ', 'A', 'N', 'S', 'W', 'E', 'R', 'E', 'D']
  | .orderFailed => txt ['O', 'R', 'D', 'E', 'R', ' ', 'F', 'A', 'I', 'L', 'E', 'D']
  | .lockout => txt ['L', 'O', 'C', 'K', 'O', 'U', 'T']
  | .callerGone => txt ['C', 'A', 'L', 'L', 'E', 'R', ' ', 'G', 'O', 'N', 'E']
  | .queueThreshold => txt ['Q', 'U', 'E', 'U', 'E', ' ', 'T', 'H', 'R', 'E', 'S', 'H', 'O', 'L', 'D']
  | .autoWithdrawn => txt ['A', 'U', 'T', 'O', ' ', 'W', 'I', 'T', 'H', 'D', 'R', 'A', 'W', 'N']
  | .exchangeDown => txt ['E', 'X', 'C', 'H', 'A', 'N', 'G', 'E', ' ', 'D', 'O', 'W', 'N']

/-- The text shown for an offered recall (R158). -/
def RecallReason.text : RecallReason → List Byte
  | .hold => txt ['R', 'E', 'C', 'A', 'L', 'L', ' ', 'H', 'O', 'L', 'D']
  | .park => txt ['R', 'E', 'C', 'A', 'L', 'L', ' ', 'P', 'A', 'R', 'K']
  | .camp => txt ['R', 'E', 'C', 'A', 'L', 'L', ' ', 'C', 'A', 'M', 'P']
  | .noAnswer => txt ['R', 'E', 'C', 'A', 'L', 'L', ' ', 'N', 'O', ' ', 'A', 'N', 'S', 'W', 'E', 'R']
  | .positionLost => txt ['R', 'E', 'C', 'A', 'L', 'L', ' ', 'P', 'O', 'S', ' ', 'L', 'O', 'S', 'T']

/-- The step text of an EXTEND loop: by the step, and at step 6 by the order in the order list (R106). -/
def stepText (step : Fin 7) (o : Option Order) : List Byte :=
  if step = 1 then txt ['S', 'P', 'L', 'I', 'T']
  else if step = 2 then txt ['C', 'A', 'L', 'L', 'I', 'N', 'G']
  else if step = 3 then txt ['R', 'I', 'N', 'G', 'I', 'N', 'G']
  else if step = 4 then txt ['B', 'U', 'S', 'Y']
  else if step = 5 then txt ['A', 'N', 'S', 'W', 'E', 'R', 'E', 'D']
  else
    match o with
    | some .transfer => txt ['T', 'R', 'A', 'N', 'S', 'F', 'E', 'R']
    | some (.camp _) => txt ['C', 'A', 'M', 'P', 'I', 'N', 'G']
    | some .dropDest => txt ['C', 'A', 'N', 'C', 'E', 'L']
    | some (.connect _ _) => txt ['R', 'E', 'T', 'U', 'R', 'N', 'I', 'N', 'G']
    | _ => []

/-- Line 1 for a call on a loop: its tenant's greeting tag in characters 1-16, a space, L and the loop number, a space
(R158). Without a call the tag is blank (R164). -/
def State.tagLine (s : State) (call : Option Slot) (l : LoopNo) : List Byte :=
  let tag :=
    match call.bind s.tenantOf with
    | some t => (s.tenant t).tag
    | none => []
  padTo 16 tag ++ [Config.space] ++ txt ['L'] ++ [digitChar (l.val + 1), Config.space]

/-- The focus loop (R158): the loop that holds the voice path, otherwise the ALERTING loop. -/
def State.focus (s : State) (p : Pos) : Option LoopNo :=
  match allLoops.find? fun l => s.holdsVoice p l with
  | some l => some l
  | none => allLoops.find? fun l => (s.loop p l).isAlerting

/-- The content of line 2 for the focus loop (R158). -/
def State.focusContent (s : State) (p : Pos) (l : LoopNo) : List Byte :=
  match (s.loop p l).slot? with
  | none => []
  | some i =>
    match s.record? i with
    | none => []
    | some r =>
      match s.loop p l, r.kind with
      | .alerting _, .recall why => why.text
      | .extend _, _ =>
        digitChars (r.dest.getD []) ++ [Config.space] ++ stepText r.step ((s.entry? i).map Entry.order)
      | _, _ => digitChars r.digits

/-- The wanted text of line 1 (R158). -/
def State.wantedLine1 (s : State) (p : Pos) : List Byte :=
  if (s.pos p).state.staffed then
    match s.focus p with
    | some l => s.tagLine (s.loop p l).slot? l
    | none =>
      match (s.pos p).note with
      | some n => padTo 20 n.line1
      | none => padTo 20 []
  else padTo 20 []

/-- The wanted text of line 2: content, and the queued figure in characters 17-20 (R158). -/
def State.wantedLine2 (s : State) (p : Pos) : List Byte :=
  if (s.pos p).state.staffed then
    let content :=
      match s.focus p with
      | some l => s.focusContent p l
      | none =>
        match (s.pos p).note with
        | some n => n.content
        | none => []
    padTo 16 content ++ txt ['Q'] ++ figure (s.queuedFigure p)
  else padTo 20 []

/-- The wanted text of a line. -/
def State.wantedLine (s : State) (p : Pos) (j : Fin 2) : List Byte := if j = 0 then s.wantedLine1 p else s.wantedLine2 p

/-! ### Notes (R159) -/

/-- A note for a loop's call: line 1 with tag and loop, and the given content. -/
def State.noteFor (s : State) (p : Pos) (l : LoopNo) (call : Option Slot) (content : List Byte) : State :=
  let line1 := s.tagLine call l
  s.updPos p fun q => { q with note := some ⟨line1, content⟩ }

/-- PARKED and the orbit (R159). -/
def parkedText (o : OrbitNo) : List Byte :=
  txt ['P', 'A', 'R', 'K', 'E', 'D', ' '] ++ [digitChar (o.val / 10), digitChar o.val]

/-- EXTENDED and the destination (R159, log 27). -/
def extendedText (ext : Digits) : List Byte := txt ['E', 'X', 'T', 'E', 'N', 'D', 'E', 'D', ' '] ++ digitChars ext

/-- CAMPED and the destination (R159). -/
def campedText (ext : Digits) : List Byte := txt ['C', 'A', 'M', 'P', 'E', 'D', ' '] ++ digitChars ext

/-- LOCKED (R159). -/
def lockedText : List Byte := txt ['L', 'O', 'C', 'K', 'E', 'D']

/-! ### The transmit queue (R156) -/

/-- The eleven items in the order of R156. -/
def allItems : List Item :=
  [.lamp 0, .lamp 1, .lamp 2, .lamp 3, .lamp 4, .lamp 5, .lamp 6, .lamp 7, .lamp 8, .line 0, .line 1]

/-- Whether the wanted value of an item differs from its sent value. -/
def State.itemDiffers (s : State) (p : Pos) : Item → Bool
  | .lamp k => s.wantedLamp p k != (s.pos p).sent.lamps[k]
  | .line j => s.wantedLine p j != (s.pos p).sent.lines[j]

/-- Whether a transmit queue entry is a given item. -/
def TxEntry.isItem (e : TxEntry) (it : Item) : Bool :=
  match e with
  | .item it' _ => it' == it
  | .tone _ => false

/-- An item that differs joins the tail unless it stands in the queue; one that no longer differs leaves the queue, unless a
carrier return put it there (R156, log 13). -/
def Position.queueItem (q : Position) (it : Item) (differs : Bool) : Position :=
  if differs then
    if q.txq.any fun e => e.isItem it then q else { q with txq := q.txq ++ [.item it false] }
  else { q with txq := q.txq.filter fun e => e != .item it false }

/-- Brings the transmit queue of one position in step with its wanted picture; an ABSENT position holds no picture (R156). -/
def State.refreshPos (s : State) (p : Pos) : State :=
  if (s.pos p).state.equipped then
    s.updPos p fun q => allItems.foldl (fun q it => q.queueItem it (s.itemDiffers p it)) q
  else s

/-- Brings every transmit queue in step, at the end of an event (R156, log 12). -/
def State.refresh (s : State) : State := allPos.foldl State.refreshPos s

/-- The head of the transmit queue is sent: an item with its wanted value of this moment, which becomes its sent value, or a
tone (R156). -/
def State.sendFrame (s : State) (p : Pos) : State :=
  if (s.pos p).state.equipped then
    match (s.pos p).txq with
    | [] => s
    | .tone t :: rest => s.updPos p fun q => { q with txq := rest, pout := q.pout ++ [.tone t] }
    | .item (.lamp k) _ :: rest =>
      let c := s.wantedLamp p k
      s.updPos p fun q =>
        { q with
          txq := rest
          pout := q.pout ++ [.lamp k c]
          sent := { q.sent with lamps := q.sent.lamps.set k c } }
    | .item (.line j) _ :: rest =>
      let t := s.wantedLine p j
      s.updPos p fun q =>
        { q with
          txq := rest
          pout := q.pout ++ [.display j t]
          sent := { q.sent with lines := q.sent.lines.set j t } }
  else s

end Sys2Proof.Machine
end

