-- ==== Sys2Proof/Machine/Distributor.lean ====
section
/-! DEFINITION. The Arrival Queue and Distributor (chapter 3, and the rank of chapter 2): joining the queue, eligibility,
offers, overflow and night service. -/

namespace Sys2Proof.Machine

/-! ### Rank (R41, R42) -/

/-- The rank of a record: four terms, and a sum above 255 taken as 255 (R41). -/
def State.rank (s : State) (r : Record) : Nat :=
  let t := s.tenant r.tenant
  let recallTerm := match r.kind with
    | .recall _ => Config.recallTerm
    | .new => 0
  min Config.rankCeiling (t.classBase + 16 * r.prio.val + recallTerm + t.agingWeight * r.aging.val)

/-- The rank of a slot's record. -/
def State.rankOf (s : State) (i : Slot) : Nat :=
  match s.record? i with
  | some r => s.rank r
  | none => 0

/-- Of a list of calls in queue order, the one of highest rank, and the earlier one between equal ranks (R42). -/
def State.bestOf (s : State) : List Slot → Option Slot
  | [] => none
  | i :: is =>
    match s.bestOf is with
    | none => some i
    | some j => if s.rankOf j ≤ s.rankOf i then some i else some j

/-! ### Eligibility (R47, R49) -/

/-- The owner rule (R47). -/
def State.ownerAllows (s : State) (p : Pos) (r : Record) : Bool :=
  match r.kind, r.owner with
  | .recall _, some x => !(s.pos x).state.staffed || decide (x = p)
  | _, _ => true

/-- Whether a queued call is eligible for a position (R47). -/
def State.eligible (s : State) (p : Pos) (i : Slot) : Bool :=
  match s.record? i with
  | some r =>
    r.loc == .queued && r.mark == none && r.claim == none && !s.inFlight i && covers (s.pos p).tenantMask r.tenant
      && s.ownerAllows p r
  | none => false

/-- Whether a call is a recall owned by a position. -/
def State.ownRecall (s : State) (p : Pos) (i : Slot) : Bool :=
  match s.record? i with
  | some r =>
    match r.kind with
    | .recall _ => r.owner == some p
    | .new => false
  | none => false

/-- Whether a position may be offered a call (R49): at OPEN every eligible call, at WITHDRAWN its own recalls. -/
def State.offerable (s : State) (p : Pos) (i : Slot) : Bool :=
  match (s.pos p).state with
  | .opened => s.eligible p i
  | .withdrawn => s.eligible p i && s.ownRecall p i
  | _ => false

/-- The loop and call of the next offer at a position, if it is eligible for an automatic offer (R49) and has a call it may
be offered: the lowest IDLE loop and the highest-ranked call (R50). -/
def State.offerAt (s : State) (p : Pos) : Option (Pos × LoopNo × Slot) :=
  if s.loopsQuiet p then
    match s.lowestIdle p, s.bestOf (s.queue.filter fun i => s.offerable p i) with
    | some l, some i => some (p, l, i)
    | _, _ => none
  else none

/-- The positions in rotation order from the pointer (R50). -/
def State.rotation (s : State) : List Pos := [s.pointer, s.pointer + 1, s.pointer + 2, s.pointer + 3]

/-- The next offer: the first position in rotation that has one (R50). -/
def State.nextOffer (s : State) : Option (Pos × LoopNo × Slot) := s.rotation.findSome? s.offerAt

/-- Makes an offer of a call to a position on a loop (R52), and moves the rotation pointer (R51). -/
def State.offer (s : State) (p : Pos) (l : LoopNo) (i : Slot) : State :=
  let s1 := (s.updRec i fun r => { r with mark := some (p, l) }).armNow i .offer s.timing.offer
  let s2 := (s1.setLoop p l (.alerting i)).raiseLoop p .offer l
  { s2 with pointer := p + 1 }

/-- Makes one offer if one is possible. -/
def State.offerOnce (s : State) : State :=
  match s.nextOffer with
  | some (p, l, i) => s.offer p l i
  | none => s

/-- The Distributor makes offers until no pair remains: at most one for each position (R50). -/
def State.makeOffers (s : State) : State := allPos.foldl (fun t _ => t.offerOnce) s

/-! ### Joining the queue (R44, R45, R46, R64) -/

/-- The threshold check after a rise of a tenant's queued count: at the threshold, QUEUE_THRESHOLD at every staffed position
whose mask includes the tenant (R46; raising is only at a staffed position, R162). -/
def State.thresholdCheck (s : State) (t : TenantNo) : State :=
  let limit := (s.tenant t).threshold
  if limit ≠ 0 ∧ s.queuedCount t = limit then
    allPos.foldl (fun u p => if covers (u.pos p).tenantMask t then u.raiseKind p .queueThreshold else u) s
  else s

/-- The record of a slot joins the tail of the queue list (R43), with the threshold check of its tenant (R46); a slot that is
not LIVE has no record to join. -/
def State.joinTail (s : State) (i : Slot) : State :=
  match s.tenantOf i with
  | some t => State.thresholdCheck { s with queue := s.queue ++ [i] } t
  | none => s

/-- A night DIVERT for a record that has no order list entry, to its tenant's night destination if present (R63, R64). -/
def State.nightDivert (s : State) (i : Slot) : State :=
  match (s.tenantOf i).bind fun t => (s.tenant t).nightDest with
  | some d => s.issue i (.divert d) .night
  | none => s

/-- The night DIVERT of a record that joins the queue while the night state is NIGHT (R64). -/
def State.nightJoin (s : State) (i : Slot) : State := if s.night = .night then s.nightDivert i else s

/-- A record joins the queue as a recall (R44), its old holder having let it go. -/
def State.recall (s : State) (i : Slot) (why : RecallReason) (owner : Option Pos) : State :=
  let s1 := s.updRec i fun r =>
    { r with kind := .recall why, owner := owner, aging := 0, overflowSpent := false, dest := none, step := 0,
             mark := none, claim := none, loc := .queued }
  ((s1.armAging i).joinTail i).nightJoin i

/-! ### Expiries that reach the Distributor -/

/-- The overflow test of R40 and the overflow DIVERT of R59. -/
def State.overflowTest (s : State) (i : Slot) : State :=
  match s.record? i with
  | some r =>
    let t := s.tenant r.tenant
    match t.overflowDest with
    | some d =>
      if t.overflowStep ≠ 0 ∧ r.aging.val = t.overflowStep ∧ r.overflowSpent = false then s.issue i (.divert d) .overflow
      else s
    | none => s
  | none => s

/-- AGING expiry (R39): the steps rise, AGING is re-armed from the expired deadline below 15 steps and absent at 15, and the
overflow test follows. -/
def State.agingDue (s : State) (i : Slot) (deadline : Tick) : State :=
  let s1 := s.updRec i fun r =>
    let steps : Fin 16 := if r.aging < Config.agingCeiling then r.aging + 1 else r.aging
    let r' := { r with aging := steps }
    if steps < Config.agingCeiling then
      r'.armAt .aging (rearmed s.tick deadline (s.tenant r.tenant).agingInterval)
    else r'.disarm
  s1.overflowTest i

/-- The end of an unanswered offer (R55, steps 1 to 3). -/
def State.offerDue (s : State) (i : Slot) : State :=
  match s.record? i with
  | some r =>
    match r.mark with
    | some (p, l) =>
      let s1 := ((s.updRec i fun r => { r with mark := none }).armAging i).loopIdle p l
      if (s1.pos p).state = .opened then
        (s1.updPos p fun q => { q with state := .withdrawn }).raiseKind p .autoWithdrawn
      else s1
    | none => s
  | none => s

/-- A position has become staffed: the night state is DAY and the night delay is disarmed (R62). -/
def State.nowStaffed (s : State) : State := { s with night := .day, nightDelay := none }

/-- A staffed position has stopped being staffed: with no other one staffed, NIGHT_PENDING and the night delay armed (R62). -/
def State.nowUnstaffed (s : State) : State :=
  if s.anyStaffed then s else { s with night := .nightPending, nightDelay := some (s.tick + s.timing.nightDelay) }

/-- Whether night entry diverts a record: no mark, no claim, no entry (R63; the night destination is asked by the DIVERT). -/
def State.nightDiverts (s : State) (i : Slot) : Bool :=
  match s.record? i with
  | some r => r.mark == none && r.claim == none && !s.inFlight i
  | none => false

/-- Night entry (R63): NIGHT, and a night DIVERT for each qualifying record, from head to tail of the queue list. -/
def State.nightEntry (s : State) : State :=
  let s1 := { s with night := .night, nightDelay := none }
  s1.queue.foldl (fun t i => if t.nightDiverts i then t.nightDivert i else t) s1

end Sys2Proof.Machine
end

