-- ==== Sys2Proof/Machine/CallTable.lean ====
section
/-! DEFINITION. The Call Table (chapter 1) and the Holding Places (chapter 6): leaving a holder, retirement, claims, and the
places a call can be put. -/

namespace Sys2Proof.Machine

/-! ### Leaving a holder -/

/-- Removes a slot from the camp-on table, freeing an entry whose list becomes empty (R115). -/
def campWithout (camp : List CampEntry) (i : Slot) : List CampEntry :=
  (camp.map fun e => { e with calls := e.calls.filter fun j => j != i }).filter fun e => !e.calls.isEmpty

/-- Whether an orbit names a slot, as its call or its reservation. -/
def Orbit.names (o : Orbit) (i : Slot) : Bool := o == .reserved i || o == .occupied i

/-- Empties every orbit that holds a slot or is reserved for it (R15, R111). -/
def State.freeOrbits (s : State) (i : Slot) : State :=
  { s with orbits := s.orbits.map fun o => if o.names i then .empty else o }

/-- The record of a slot leaves its queue place, orbit, camp-on list or loop (R43, R110, R115, R71). Its location field is
changed by the taker. A reservation is not touched. -/
def State.leaveHolder (s : State) (i : Slot) : State :=
  match s.record? i with
  | some r =>
    match r.loc with
    | .queued => { s with queue := s.queue.filter fun j => j != i }
    | .loop p l => s.loopIdle p l
    | .parked _ => s.freeOrbits i
    | .camped _ => { s with camp := campWithout s.camp i }
    | .extended _ => s
    | .rescue _ => s
  | none => s

/-! ### Retirement (R15, R16) -/

/-- The loops that lose their call when a record is retired: its holder, its offer mark, its claim (R16). -/
def Record.loops (r : Record) : List (Pos × LoopNo) :=
  (match r.loc with
    | .loop p l => [(p, l)]
    | _ => []) ++
  (match r.mark with
    | some pl => [pl]
    | none => []) ++
  (match r.claim with
    | some c => [(c.pos, c.loop)]
    | none => [])

/-- Step 5 and 6 of R15: a SENT entry stays and the slot goes RETIRING; any other entry is withdrawn and the slot goes FREE. -/
def State.freeSlot (s : State) (i : Slot) (ref : CallRef) : State :=
  match s.entry? i with
  | some e => if e.isSent then s.setSlot i (.retiring ref) else (s.dropEntry i).setSlot i .free
  | none => s.setSlot i .free

/-- Retires a LIVE record (R15). `gone` says that the caller has gone (CLEARED or NO_CALL): then every loop that lost the call
receives a CALLER_GONE alert after it became IDLE, and its display note (R16, R159, log 21). -/
def State.retire (s : State) (i : Slot) (gone : Bool) : State :=
  match s.record? i with
  | some r =>
    let noted := if gone then r.loops.foldl (fun t pl => t.noteFor pl.1 pl.2 (some i) AlertKind.callerGone.text) s else s
    let left := (noted.leaveHolder i).freeOrbits i
    let idle := r.loops.foldl (fun t pl => t.loopIdle pl.1 pl.2) left
    let freed := idle.freeSlot i r.ref
    if gone then r.loops.foldl (fun t pl => t.raiseLoop pl.1 .callerGone pl.2) freed else freed
  | none => s

/-! ### The emptying of the Call Table (R4, R70, R137, R142) -/

/-- A position after the emptying: every loop IDLE and every loop entry out of the alert list (R70, R163, log 29). -/
def Position.emptied (q : Position) : Position :=
  { q with loops := Vector.replicate 6 .idle }.keepAlerts fun a => a.loop == none

/-- Every call, order and holding place is emptied and the pause flag cleared (R137, R142). -/
def State.clearCalls (s : State) : State :=
  { s with
    slots := Vector.replicate 128 .free
    queue := [], camp := [], orders := [], window := [], paused := false
    orbits := Vector.replicate 20 .empty
    positions := s.positions.map Position.emptied }

/-! ### Claims (R19 to R23) -/

/-- Where a request finds the record pickable: QUEUED for an answer or Answer Next, PARKED for Pickup (R19). -/
inductive Request where
  | answer | pickup
  deriving DecidableEq, Repr

/-- Whether a location is pickable for a request (R19). -/
def Request.pickable : Request → Location → Bool
  | .answer, .queued => true
  | .pickup, .parked _ => true
  | _, _ => false

/-- The grant (R20): CONNECT is issued and the loop becomes CONNECTING; a claim from an ALERTING loop removes the offer mark
and disarms OFFER. -/
def State.grant (s : State) (p : Pos) (l : LoopNo) (i : Slot) : State :=
  let s1 := s.updRec i fun r =>
    let r1 := { r with claim := some ⟨p, l, true⟩ }
    if r.mark = some (p, l) then { r1 with mark := none }.disarm else r1
  (s1.loopConnecting p l i).issue i (.connect p l) .none

/-- A claim request from a loop, decided in the order of R19: too late, deferred, granted, refused. -/
def State.claimRequest (s : State) (p : Pos) (l : LoopNo) (i : Slot) (how : Request) : State :=
  match s.record? i with
  | some r =>
    if r.claim.isSome then s.errorTone p
    else if s.inFlight i then
      (s.updRec i fun r => { r with claim := some ⟨p, l, false⟩ }).loopConnecting p l i
    else if how.pickable r.loc then s.grant p l i
    else s.errorTone p
  | none => s.errorTone p

/-- Whether a record is in the rescue set (R87). -/
def Location.isRescue : Location → Bool
  | .rescue _ => true
  | _ => false

/-- The re-examination of a WAITING claim after the record's owner has acted on a response (R21). It takes place only for a
record that has no entry again (R132), but for a call of the rescue set whose park HOLD was refused: its claim is dropped
although the rescue RELEASE has been issued (R90; log 15). Only Pickup requests are deferred, so PARKED is the pickable location
(log 26). -/
def State.reexamine (s : State) (i : Slot) : State :=
  match s.record? i with
  | some r =>
    match r.claim with
    | some c =>
      if c.granted || (s.inFlight i && !r.loc.isRescue) then s
      else if Request.pickable .pickup r.loc then
        (s.updRec i fun r => { r with claim := some ⟨c.pos, c.loop, true⟩ }).issue i (.connect c.pos c.loop) .none
      else
        ((s.updRec i fun r => { r with claim := none }).loopIdle c.pos c.loop).errorTone c.pos
    | none => s
  | none => s

/-- CONNECT DONE of a GRANTED claim (R22): the record goes to the loop, in TALK, with the claiming position as its owner. -/
def State.claimDone (s : State) (i : Slot) (c : Claim) : State :=
  let s1 := (s.leaveHolder i).updRec i fun r =>
    { r with loc := .loop c.pos c.loop, claim := none, owner := some c.pos }.disarm
  s1.setLoop c.pos c.loop (.talk i)

/-- CONNECT refused for a GRANTED claim (R22): the claim is removed, a QUEUED record with no timer gets AGING, and the loop
becomes IDLE with an ORDER_FAILED alert. -/
def State.claimRefused (s : State) (i : Slot) (c : Claim) : State :=
  let s1 := s.updRec i fun r => { r with claim := none }
  let s2 :=
    match s1.record? i with
    | some r => if r.loc = Location.queued ∧ r.timer = none then s1.armAging i else s1
    | none => s1
  (s2.loopIdle c.pos c.loop).raiseLoop c.pos .orderFailed c.loop

/-! ### The holding places (chapter 6) -/

/-- The orbit reserved for a record, if any (R110). -/
def State.reservation (s : State) (i : Slot) : Option OrbitNo :=
  (List.finRange 20).find? fun o => s.orbit o == .reserved i

/-- The lowest-numbered EMPTY orbit (R81, R111). -/
def State.lowestOrbit (s : State) : Option OrbitNo := (List.finRange 20).find? fun o => s.orbit o == .empty

/-- The record named by an orbit, held or reserved (R76). -/
def Orbit.slot? : Orbit → Option Slot
  | .empty => none
  | .reserved i => some i
  | .occupied i => some i

/-- A record is placed in an orbit (R112): OCCUPIED, PARK_RECALL from now, owner the parking position. -/
def State.placeInOrbit (s : State) (i : Slot) (o : OrbitNo) (p : Pos) : State :=
  let s1 := (s.setOrbit o (.occupied i)).updRec i fun r => { r with loc := .parked o, owner := some p }
  s1.armNow i .parkRecall s.timing.parkRecall

/-- A slot joins the tail of its extension's list; an unused entry takes an extension that has none (R116, log 28). -/
def campWith (camp : List CampEntry) (ext : Digits) (i : Slot) : List CampEntry :=
  if camp.any fun e => e.ext == ext then
    camp.map fun e => if e.ext = ext then { e with calls := e.calls ++ [i] } else e
  else camp ++ [⟨ext, [i]⟩]

/-- A record joins the camp-on list of its destination (R102, R116). -/
def State.campAt (s : State) (i : Slot) (ext : Digits) : State :=
  let s1 := { s with camp := campWith s.camp ext i }.updRec i fun r =>
    { r with loc := .camped ext, dest := some ext, step := 0 }
  s1.armNow i .campTimeout s.timing.camp

/-- A record joins the extended set (R120). -/
def State.extendTo (s : State) (i : Slot) (ext : Digits) (owner : Option Pos) : State :=
  let s1 := s.updRec i fun r => { r with loc := .extended ext, dest := some ext, step := 0, owner := owner }
  s1.armNow i .noAnswer s.timing.noAnswer

/-- The extensions of the CAMP orders in the order list, in any state (R101). -/
def State.campOrders (s : State) : List Digits :=
  s.orders.filterMap fun e =>
    match e.order with
    | .camp ext => some ext
    | _ => none

/-- Whether the camp-on table has room for a destination (R101). -/
def State.campRoom (s : State) (ext : Digits) : Bool :=
  let pending := s.campOrders
  let calls := ((s.camp.filter fun e => e.ext == ext).map fun e => e.calls.length).sum
  if (s.camp.any fun e => e.ext == ext) || pending.contains ext then
    decide (calls + (pending.filter fun x => x == ext).length < Config.campPlaces)
  else
    let others := (pending.filter fun x => x != ext && !s.camp.any fun e => e.ext == x).eraseDups
    decide (s.camp.length + others.length < Config.campEntries)

end Sys2Proof.Machine
end

