-- ==== Sys2Proof/Machine/Rescue.lean ====
section
/-! DEFINITION. Rescue when a position fails (4.7): the rescue of each loop, the rescue set's action on responses, and the
carrier events. -/

namespace Sys2Proof.Machine

/-- An answer to an order after decoding, NO_CALL apart (R128, R131): DONE with its result byte, or REFUSED, with a note
whether the reason was ANSWERED. -/
inductive Answer where
  | done (result : Byte)
  | refused (answered : Bool)
  deriving DecidableEq, Repr

/-- The results of RING_EXT (R128): a result that is none of the three is acted on as UNOBTAINABLE. -/
inductive RingResult where
  | ringing | busy | unobtainable
  deriving DecidableEq, Repr

/-- The result a DONE of RING_EXT carries (R128, R153). -/
def ringResult (b : Byte) : RingResult :=
  if b = 1 then .ringing else if b = 2 then .busy else .unobtainable

/-- A holder gives a record up and it joins the queue as a recall (R44). -/
def State.recallFrom (s : State) (i : Slot) (why : RecallReason) (owner : Option Pos) : State :=
  (s.leaveHolder i).recall i why owner

/-- A record enters the rescue set (R87, R88): it leaves its queue place, orbit or loop; its timer is disarmed and a held
expiry dropped (R86); a GRANTED claim, being the failed position's own, is removed, and a WAITING claim of another position
stays (R90). -/
def State.enterRescue (s : State) (i : Slot) (m : Rescue) : State :=
  (s.leaveHolder i).updRec i fun r =>
    let kept := r.claim.bind fun c => if c.granted then none else some c
    { r with loc := .rescue m, mark := none, claim := kept }.disarm

/-- Changes the fields of a rescue set member. -/
def State.updRescue (s : State) (i : Slot) (m : Rescue) : State := s.updRec i fun r => { r with loc := .rescue m }

/-- Sets the extend step of a record (R91). -/
def State.setStep (s : State) (i : Slot) (step : Fin 7) : State := s.updRec i fun r => { r with step := step }

/-- The caller condition of a loop whose record is rescued with its order in flight (R88; LOCKED: log 17). -/
def LoopState.condition : LoopState → CallerCondition
  | .talk _ => .connected
  | .locked _ => .connected
  | _ => .split

/-- Whether a loop is LOCKED. -/
def LoopState.isLocked : LoopState → Bool
  | .locked _ => true
  | _ => false

/-- The rescue of a loop whose record has an order in flight (R88): the record moves into the rescue set as it stands. -/
def State.rescueInFlight (s : State) (p : Pos) (st : LoopState) (i : Slot) : State :=
  let final := st.isLocked && (s.entry? i).any fun e => e.order == .release
  s.enterRescue i ⟨p, st.condition, s.reservation i, final⟩

/-- The rescue of a loop whose record has no order in flight (R86). -/
def State.rescueSettled (s : State) (p : Pos) (st : LoopState) (i : Slot) : State :=
  match st with
  | .talk _ => (s.enterRescue i ⟨p, .connected, none, false⟩).issue i .hold .none
  | .held _ | .recalling _ => s.recallFrom i .positionLost none
  | .extend _ =>
    match s.record? i with
    | some r =>
      if r.step = 3 then ((s.enterRescue i ⟨p, .split, none, false⟩).issue i .transfer .unscreened).setStep i 6
      else if r.step = 5 then ((s.enterRescue i ⟨p, .split, none, false⟩).issue i .transfer .screened).setStep i 6
      else s.recallFrom i .positionLost none
    | none => s
  | .locked _ => (s.enterRescue i ⟨p, .connected, none, true⟩).issue i .release .none
  | _ => s

/-- The rescue of one loop of a failed position (R85 step 3, R86, R88): whatever its state, the loop is IDLE afterwards. -/
def State.rescueLoop (s : State) (p : Pos) (l : LoopNo) : State :=
  let st := s.loop p l
  let s0 := s.loopIdle p l
  match st with
  | .idle => s
  | .alerting i => (s0.updRec i fun r => { r with mark := none }).armAging i
  | .connecting i =>
    match (s.record? i).bind Record.claim with
    | some c => if c.granted then s0.rescueInFlight p st i else s0.updRec i fun r => { r with claim := none }
    | none => s0
  | .talk i | .held i | .recalling i | .extend i | .locked i =>
    if s.inFlight i then s0.rescueInFlight p st i else s0.rescueSettled p st i

/-- What carrier loss does at the Position Controller of a CLOSED, OPEN or WITHDRAWN position (R85, steps 1 to 4): the key
buffer is emptied, the position is FAULTED, the night state follows, the loops are rescued L1 to L6, and the alert list and
the note go (R159). -/
def State.failPosition (s : State) (p : Pos) : State :=
  let staffed := (s.pos p).state.staffed
  let s1 := s.updPos p fun q => { q with keys := [], state := .faulted }
  let s2 := if staffed then s1.nowUnstaffed else s1
  let s3 := allLoops.foldl (fun t l => t.rescueLoop p l) s2
  s3.updPos p fun q => { q.clearAlerts with note := none }

/-- A carrier loss at an equipped position (R155): the carrier state becomes LOST, and the Position Controller fails the
position unless it is FAULTED already (R69). With the carrier state LOST there is no change of level and no event. -/
def State.carrierLost (s : State) (p : Pos) : State :=
  if (s.pos p).state.equipped && (s.pos p).carrier then
    let s1 := s.updPos p fun q => { q with carrier := false }
    if (s.pos p).state = .faulted then s1 else s1.failPosition p
  else s

/-- A carrier return at an equipped position (R155): the carrier state becomes PRESENT, the console's whole picture is queued
afresh (R156), and a FAULTED position becomes CLOSED (R69). -/
def State.carrierBack (s : State) (p : Pos) : State :=
  if (s.pos p).state.equipped && !(s.pos p).carrier then
    s.updPos p fun q =>
      { q with
        carrier := true
        sent := Picture.startup
        txq := allItems.map fun it => .item it true
        state := if q.state = .faulted then .closed else q.state }
  else s

/-! ### The rescue set's action on a response (R88, R89) -/

/-- The rescue set sends a record to the queue (R88). -/
def State.rescueToQueue (s : State) (i : Slot) : State := s.recallFrom i .positionLost none

/-- The rescue set issues a final RELEASE (R89). -/
def State.rescueRelease (s : State) (i : Slot) (m : Rescue) : State :=
  (s.updRescue i { m with orbit := none, final := true }).issue i .release .none

/-- The rescue set issues a rescue HOLD (R89). -/
def State.rescueHold (s : State) (i : Slot) (m : Rescue) : State :=
  (s.updRescue i { m with orbit := none }).issue i .hold .none

/-- The response to the order of a rescue set member (the table of R88, with R89). NO_CALL is not among the answers (R131). -/
def State.rescueAnswer (s : State) (i : Slot) (m : Rescue) (r : Record) (e : Entry) (a : Answer) : State :=
  match e.order, a with
  | .connect _ _, .done _ => s.rescueHold i { m with condition := .connected }
  | .connect _ _, .refused _ => s.rescueToQueue i
  | .hold, .done _ =>
    match m.orbit with
    | some o => s.placeInOrbit i o m.failed
    | none => s.rescueToQueue i
  | .hold, .refused _ => (s.freeOrbits i).rescueRelease i m
  | .release, .done _ => s.retire i false
  | .release, .refused _ =>
    if m.final then s.retire i false
    else if m.condition = .connected then s.rescueHold i m
    else s.rescueToQueue i
  | .split, .done _ => s.rescueToQueue i
  | .split, .refused _ => s.rescueHold i m
  | .ringExt _, .done b =>
    if ringResult b = .ringing then (s.issue i .transfer .unscreened).setStep i 6 else s.rescueToQueue i
  | .ringExt _, .refused _ => s.rescueToQueue i
  | .transfer, .done _ => if e.mark = .screened then s.retire i false else s.extendTo i (r.dest.getD []) none
  | .transfer, .refused _ => s.issue i .dropDest .none
  | .camp ext, .done _ => s.campAt i ext
  | .camp _, .refused _ => s.rescueToQueue i
  | .dropDest, _ => s.rescueToQueue i
  | .retrieve, _ => s
  | .divert _, _ => s

end Sys2Proof.Machine
end

