-- ==== Sys2Proof/Machine/Responses.lean ====
section
/-! DEFINITION. What the block that holds a record does with the response to its order (the table of R130): claim
acknowledgement, DIVERTs, the loop orders of chapter 4, the extend sequence of chapter 5, and the holding places of chapter 6. -/

namespace Sys2Proof.Machine

/-- ORDER_FAILED at a loop whose order was refused. -/
def State.orderFailed (s : State) (p : Pos) (l : LoopNo) : State := s.raiseLoop p .orderFailed l

/-! ### Held expiries and deliveries (R31, R36) -/

/-- HOLD_RECALL expiry at a HELD loop (R83): RECALLING, the alert, and ESCALATE from the expired deadline. -/
def State.holdRecallDue (s : State) (i : Slot) (deadline : Tick) : State :=
  match (s.record? i).map Record.loc with
  | some (.loop p l) =>
    ((s.setLoop p l (.recalling i)).raiseLoop p .holdRecall l).armFrom i .escalate deadline s.timing.escalation
  | _ => s

/-- ESCALATE expiry at a RECALLING loop (R84): the call leaves the loop and joins the queue as RECALL(HOLD). -/
def State.escalateDue (s : State) (i : Slot) : State :=
  match (s.record? i).map Record.loc with
  | some (.loop p _) => s.recallFrom i .hold (some p)
  | _ => s

/-- PARK_RECALL expiry (R114): the orbit empties and the call joins the queue as RECALL(PARK), its owner kept. -/
def State.parkRecallDue (s : State) (i : Slot) : State :=
  match s.record? i with
  | some r => s.recallFrom i .park r.owner
  | none => s

/-- NO_ANSWER and CAMP_TIMEOUT expiry (R121, R119): RETRIEVE is issued and the timer becomes spent, keeping its deadline. -/
def State.retrieveDue (s : State) (i : Slot) : State :=
  (s.issue i .retrieve .none).updRec i fun r => { r with timer := r.timer.map fun t => { t with spent := true } }

/-- An expiry delivered to the block that owns what it times (R31). -/
def State.deliver (s : State) (i : Slot) (pu : Purpose) (deadline : Tick) : State :=
  match pu with
  | .aging => s.agingDue i deadline
  | .offer => s.offerDue i
  | .holdRecall => s.holdRecallDue i deadline
  | .escalate => s.escalateDue i
  | .noAnswer => s.retrieveDue i
  | .campTimeout => s.retrieveDue i
  | .parkRecall => s.parkRecallDue i

/-- Whether a loop is HELD. -/
def LoopState.isHeld : LoopState → Bool
  | .held _ => true
  | _ => false

/-- Whether a loop is RECALLING. -/
def LoopState.isRecalling : LoopState → Bool
  | .recalling _ => true
  | _ => false

/-- Whether a record is in the location a timer's purpose belongs to (the table of R36). -/
def State.inPlace (s : State) (r : Record) (pu : Purpose) : Bool :=
  match pu, r.loc with
  | .aging, .queued => r.mark == none
  | .offer, .queued => r.mark != none
  | .holdRecall, .loop p l => (s.loop p l).isHeld
  | .escalate, .loop p l => (s.loop p l).isRecalling
  | .noAnswer, .extended _ => true
  | .campTimeout, .camped _ => true
  | .parkRecall, .parked _ => true
  | _, _ => false

/-- The settlement of a held expiry after the response to the record's order (R36): dropped if the record has moved, kept if
it has an order in flight again, and delivered otherwise with the spent deadline as its base. -/
def State.settleHeld (s : State) (i : Slot) : State :=
  match s.record? i with
  | some r =>
    match r.held, r.timer with
    | some pu, some t =>
      if s.inPlace r pu then
        if s.inFlight i then s
        else (s.updRec i fun r => { r with held := none }).deliver i pu t.deadline
      else s.updRec i fun r => { r with held := none, timer := if t.spent then none else some t }
    | some _, none => s.updRec i fun r => { r with held := none }
    | none, _ => s
  | none => s

/-! ### DIVERT (R60, R65) -/

/-- The response to a DIVERT: DONE retires the record; a refusal of an overflow DIVERT spends the overflow (R60), and a
refusal of a night DIVERT leaves the record as it is (R65). -/
def State.divertAnswer (s : State) (i : Slot) (e : Entry) (a : Answer) : State :=
  match a with
  | .done _ => s.retire i false
  | .refused _ => if e.mark = .overflow then s.updRec i fun r => { r with overflowSpent := true } else s

/-! ### Loops in TALK, HELD, RECALLING and LOCKED (chapter 4) -/

/-- The response to a retrieving CONNECT (R78). -/
def State.retrievalAnswer (s : State) (p : Pos) (l : LoopNo) (i : Slot) (a : Answer) : State :=
  match a with
  | .done _ =>
    ((s.setLoop p l (.talk i)).updRec i Record.disarm).updPos p fun q => q.dropKindAt l .holdRecall
  | .refused _ => s.orderFailed p l

/-- The response to the HOLD of the Hold key, or of a park from TALK where an orbit is reserved for the record (R79, R81). -/
def State.holdAnswer (s : State) (p : Pos) (l : LoopNo) (i : Slot) (a : Answer) : State :=
  match s.reservation i, a with
  | some o, .done _ => ((s.noteFor p l (some i) (parkedText o)).leaveHolder i).placeInOrbit i o p
  | some o, .refused _ => (s.setOrbit o .empty).orderFailed p l
  | none, .done _ => (s.setLoop p l (.held i)).armNow i .holdRecall s.timing.holdRecall
  | none, .refused _ => s.orderFailed p l

/-- The response to the RELEASE of the Release key (R80). -/
def State.releaseAnswer (s : State) (p : Pos) (l : LoopNo) (i : Slot) (a : Answer) : State :=
  match a with
  | .done _ => s.retire i false
  | .refused _ => s.orderFailed p l

/-! ### The extend sequence (chapter 5) -/

/-- The return CONNECT (R103): issued on the record's own loop, and the step becomes 6. -/
def State.returnConnect (s : State) (p : Pos) (l : LoopNo) (i : Slot) : State :=
  (s.issue i (.connect p l) .none).setStep i 6

/-- The loop leaves EXTEND for TALK: step 0, no destination (R8, R91). -/
def State.extendToTalk (s : State) (p : Pos) (l : LoopNo) (i : Slot) : State :=
  (s.updRec i fun r => { r with step := 0, dest := none }).setLoop p l (.talk i)

/-- The response to SPLIT (R94). -/
def State.splitAnswer (s : State) (p : Pos) (l : LoopNo) (i : Slot) (r : Record) (a : Answer) : State :=
  match a with
  | .done _ => (s.setStep i 2).issue i (.ringExt (r.dest.getD [])) .none
  | .refused _ => (s.extendToTalk p l i).orderFailed p l

/-- The response to the RING_EXT of step 2 (R95). -/
def State.ringAnswer (s : State) (p : Pos) (l : LoopNo) (i : Slot) (a : Answer) : State :=
  match a with
  | .done b =>
    match ringResult b with
    | .ringing => s.setStep i 3
    | .busy => (s.setStep i 4).raiseLoop p .destBusy l
    | .unobtainable => (s.raiseLoop p .destUnobtainable l).returnConnect p l i
  | .refused _ => (s.orderFailed p l).returnConnect p l i

/-- The response to TRANSFER, by its mark (R92): unscreened (R98) or screened (R99). -/
def State.transferAnswer (s : State) (p : Pos) (l : LoopNo) (i : Slot) (r : Record) (e : Entry) (a : Answer) : State :=
  match e.mark, a with
  | .screened, .done _ => (s.noteFor p l (some i) (digitChars r.digits)).retire i false
  | .screened, .refused _ => (s.setStep i 5).orderFailed p l
  | _, .done _ =>
    ((s.noteFor p l (some i) (extendedText (r.dest.getD []))).leaveHolder i).extendTo i (r.dest.getD []) r.owner
  | _, .refused _ => (s.setStep i 3).orderFailed p l

/-- The response to CAMP (R102). -/
def State.campAnswer (s : State) (p : Pos) (l : LoopNo) (i : Slot) (ext : Digits) (a : Answer) : State :=
  match a with
  | .done _ => ((s.noteFor p l (some i) (campedText ext)).leaveHolder i).campAt i ext
  | .refused _ => (s.setStep i 4).orderFailed p l

/-- The response to DROP_DEST (R100): the return CONNECT either way, and ORDER_FAILED after a refusal. -/
def State.dropDestAnswer (s : State) (p : Pos) (l : LoopNo) (i : Slot) (a : Answer) : State :=
  match a with
  | .done _ => s.returnConnect p l i
  | .refused _ => (s.orderFailed p l).returnConnect p l i

/-- A loop becomes LOCKED (R105): step 0, no destination, no timer, a LOCKOUT alert and the LOCKED note (R159). -/
def State.lockLoop (s : State) (p : Pos) (l : LoopNo) (i : Slot) : State :=
  let s1 := (s.updRec i fun r => { r with step := 0, dest := none }.disarm).setLoop p l (.locked i)
  (s1.raiseLoop p .lockout l).noteFor p l (some i) lockedText

/-- The response to the return CONNECT (R104). -/
def State.returnAnswer (s : State) (p : Pos) (l : LoopNo) (i : Slot) (a : Answer) : State :=
  match a with
  | .done _ => s.extendToTalk p l i
  | .refused _ => s.lockLoop p l i

/-! ### Camp-on lists and the extended set (chapter 6) -/

/-- The response to the RING_EXT of the camp-on table (R118). -/
def State.campRingAnswer (s : State) (i : Slot) (ext : Digits) (r : Record) (a : Answer) : State :=
  match a with
  | .done b =>
    match ringResult b with
    | .ringing => (s.leaveHolder i).extendTo i ext r.owner
    | .busy => s
    | .unobtainable => s.recallFrom i .camp r.owner
  | .refused _ => s.recallFrom i .camp r.owner

/-- Re-arming from the spent deadline after a refused RETRIEVE (R34, R119, R121). -/
def State.rearmSpent (s : State) (i : Slot) (r : Record) (pu : Purpose) (iv : Interval) : State :=
  match r.timer with
  | some t => s.armFrom i pu t.deadline iv
  | none => s.armNow i pu iv

/-- The response to the RETRIEVE of a camped call (R119). -/
def State.campRetrieveAnswer (s : State) (i : Slot) (r : Record) (a : Answer) : State :=
  match a with
  | .done _ => s.recallFrom i .camp r.owner
  | .refused _ => s.rearmSpent i r .campTimeout s.timing.camp

/-- The response to the RETRIEVE of an extended call (R121): REFUSED with reason ANSWERED retires it. -/
def State.extRetrieveAnswer (s : State) (i : Slot) (r : Record) (a : Answer) : State :=
  match a with
  | .done _ => s.recallFrom i .noAnswer r.owner
  | .refused true => s.retire i false
  | .refused false => s.rearmSpent i r .noAnswer s.timing.noAnswer

/-! ### The block that acts on a response (R130) -/

/-- The acknowledgement of a claim (R22). -/
def State.claimAnswer (s : State) (i : Slot) (c : Claim) (a : Answer) : State :=
  match a with
  | .done _ => s.claimDone i c
  | .refused _ => s.claimRefused i c

/-- The Position Controller's action for a record on one of its loops, by the loop's state and the order (R130). A pair that
R130 does not list does nothing (log 18). -/
def State.loopAnswer (s : State) (p : Pos) (l : LoopNo) (i : Slot) (r : Record) (e : Entry) (a : Answer) : State :=
  match s.loop p l, e.order with
  | .held _, .connect _ _ => s.retrievalAnswer p l i a
  | .recalling _, .connect _ _ => s.retrievalAnswer p l i a
  | .talk _, .hold => s.holdAnswer p l i a
  | .talk _, .release => s.releaseAnswer p l i a
  | .held _, .release => s.releaseAnswer p l i a
  | .recalling _, .release => s.releaseAnswer p l i a
  | .extend _, .split => s.splitAnswer p l i r a
  | .extend _, .ringExt _ => s.ringAnswer p l i a
  | .extend _, .transfer => s.transferAnswer p l i r e a
  | .extend _, .camp ext => s.campAnswer p l i ext a
  | .extend _, .dropDest => s.dropDestAnswer p l i a
  | .extend _, .connect _ _ => s.returnAnswer p l i a
  | .locked _, .release => s.retire i false
  | _, _ => s

/-- The block that acts on a response, by the record's state when it is taken (R130). -/
def State.ownerActs (s : State) (i : Slot) (r : Record) (e : Entry) (a : Answer) : State :=
  match r.loc, e.order with
  | .queued, .connect _ _ =>
    match r.claim with
    | some c => if c.granted then s.claimAnswer i c a else s
    | none => s
  | .parked _, .connect _ _ =>
    match r.claim with
    | some c => if c.granted then s.claimAnswer i c a else s
    | none => s
  | .queued, .divert _ => s.divertAnswer i e a
  | .loop p l, _ => s.loopAnswer p l i r e a
  | .camped ext, .ringExt _ => s.campRingAnswer i ext r a
  | .camped _, .retrieve => s.campRetrieveAnswer i r a
  | .extended _, .retrieve => s.extRetrieveAnswer i r a
  | .rescue m, _ => s.rescueAnswer i m r e a
  | _, _ => s

end Sys2Proof.Machine
end

