-- ==== Sys2Proof/Machine/Keys.lean ====
section
/-! DEFINITION. The Position Controller's keys (chapters 4 and 5): what each key does when it is evaluated, the key buffer, and
the end of an event: waiting keys, offers, sending, pictures (R132). -/

namespace Sys2Proof.Machine

/-! ### Position keys -/

/-- Open (R68): a CLOSED position becomes OPEN, and the night state DAY (R62). -/
def State.keyOpen (s : State) (p : Pos) : State :=
  if (s.pos p).state = .closed then (s.updPos p fun q => { q with state := .opened }).nowStaffed else s.errorTone p

/-- Close (R68): a staffed position with all loops IDLE becomes CLOSED; its alert list is emptied and its note dropped (R159),
and the night state follows R62. -/
def State.keyClose (s : State) (p : Pos) : State :=
  if (s.pos p).state.staffed && allLoops.all fun l => s.loop p l == .idle then
    (s.updPos p fun q => { q.clearAlerts with state := .closed, note := none }).nowUnstaffed
  else s.errorTone p

/-- Withdraw (R68). -/
def State.keyWithdraw (s : State) (p : Pos) : State :=
  if (s.pos p).state = .opened then s.updPos p fun q => { q with state := .withdrawn } else s.errorTone p

/-- Resume (R68). -/
def State.keyResume (s : State) (p : Pos) : State :=
  if (s.pos p).state = .withdrawn then s.updPos p fun q => { q with state := .opened } else s.errorTone p

/-- The note a reviewed entry becomes (R164): for a loop entry the tag of the call its loop now refers to, or blanks, and the
loop number; for a position-level entry a blank line 1. -/
def State.reviewNote (s : State) (p : Pos) (a : Alert) : Note :=
  match a.loop with
  | some l => ⟨s.tagLine (s.loop p l).slot? l, a.kind.text⟩
  | none => ⟨padTo 20 [], a.kind.text⟩

/-- Removes the head of the alert list; reviewing the last sounding entry ends the repeats (R164, R160). -/
def Position.dropHead (q : Position) : Position :=
  { q with
    alerts := q.alerts.tail
    toneRepeat := if q.alerts.any q.sounding && !q.alerts.tail.any q.sounding then none else q.toneRepeat }

/-- Review (R164): the head entry leaves the list and becomes the display note. -/
def State.keyReview (s : State) (p : Pos) : State :=
  if (s.pos p).state.staffed then
    match (s.pos p).alerts with
    | a :: _ =>
      let n := s.reviewNote p a
      s.updPos p fun q => { q.dropHead with note := some n }
    | [] => s.errorTone p
  else s.errorTone p

/-- Answer Next (R57, R76): the highest-ranked eligible call is claimed on the lowest IDLE loop. -/
def State.keyAnswerNext (s : State) (p : Pos) : State :=
  if (s.pos p).state.staffed && s.loopsQuiet p && s.voiceFree p then
    match s.lowestIdle p, s.bestOf (s.queue.filter fun i => s.eligible p i) with
    | some l, some i => s.claimRequest p l i .answer
    | _, _ => s.errorTone p
  else s.errorTone p

/-- Pickup n (R76): a claim request for the call in, or reserved for, orbit n, on the lowest IDLE loop. -/
def State.keyPickup (s : State) (p : Pos) (a : KeyArgs) : State :=
  if (s.pos p).state.staffed && s.voiceFree p then
    match s.lowestIdle p, (orbitOf a).bind fun o => (s.orbit o).slot? with
    | some l, some i => s.claimRequest p l i .pickup
    | _, _ => s.errorTone p
  else s.errorTone p

/-! ### Loop keys -/

/-- The Loop key (R77): answers an ALERTING loop by a claim request, or retrieves a HELD or RECALLING call by CONNECT. -/
def State.keyLoop (s : State) (p : Pos) (l : LoopNo) : State :=
  if s.voiceFree p then
    match s.loop p l with
    | .alerting i => s.claimRequest p l i .answer
    | .held i => s.issue i (.connect p l) .none
    | .recalling i => s.issue i (.connect p l) .none
    | _ => s.errorTone p
  else s.errorTone p

/-- The Hold key (R79). -/
def State.keyHold (s : State) (p : Pos) (l : LoopNo) : State :=
  match s.loop p l with
  | .talk i => s.issue i .hold .none
  | _ => s.errorTone p

/-- The extend step of a slot's record, 0 without one. -/
def State.stepOf (s : State) (i : Slot) : Fin 7 :=
  match s.record? i with
  | some r => r.step
  | none => 0

/-- The Release key (R80, and R98, R99 at an EXTEND loop). -/
def State.keyRelease (s : State) (p : Pos) (l : LoopNo) : State :=
  match s.loop p l with
  | .talk i => s.issue i .release .none
  | .held i => s.issue i .release .none
  | .recalling i => s.issue i .release .none
  | .extend i =>
    if s.stepOf i = 3 then (s.issue i .transfer .unscreened).setStep i 6
    else if s.stepOf i = 5 then (s.issue i .transfer .screened).setStep i 6
    else s.errorTone p
  | _ => s.errorTone p

/-- The orbit a Park key takes: the named one if it is EMPTY, or the lowest EMPTY one (R81). -/
def State.parkOrbit (s : State) (a : KeyArgs) : Option OrbitNo :=
  match parkArgument a with
  | some (some o) => if s.orbit o = .empty then some o else none
  | some none => s.lowestOrbit
  | none => none

/-- The Park key (R81): from TALK the orbit is reserved and HOLD issued; from HELD the call is placed in the orbit at once. -/
def State.keyPark (s : State) (p : Pos) (l : LoopNo) (a : KeyArgs) : State :=
  match s.parkOrbit a, s.loop p l with
  | some o, .talk i => (s.setOrbit o (.reserved i)).issue i .hold .none
  | some o, .held i => ((s.noteFor p l (some i) (parkedText o)).leaveHolder i).placeInOrbit i o p
  | _, _ => s.errorTone p

/-- The Extend key (R93). -/
def State.keyExtend (s : State) (p : Pos) (l : LoopNo) (a : KeyArgs) : State :=
  match s.loop p l, extensionOf a with
  | .talk i, some ext =>
    ((s.setLoop p l (.extend i)).updRec i fun r => { r with step := 1, dest := some ext }).issue i .split .none
  | _, _ => s.errorTone p

/-- The Cancel key (R100, R101). -/
def State.keyCancel (s : State) (p : Pos) (l : LoopNo) : State :=
  match s.loop p l with
  | .extend i =>
    if s.stepOf i = 3 ∨ s.stepOf i = 5 then (s.issue i .dropDest .none).setStep i 6
    else if s.stepOf i = 4 then s.returnConnect p l i
    else s.errorTone p
  | _ => s.errorTone p

/-- The Camp key (R101): valid at step 4 when the camp-on table has room for the destination. -/
def State.keyCamp (s : State) (p : Pos) (l : LoopNo) : State :=
  match s.loop p l with
  | .extend i =>
    match (s.record? i).bind Record.dest with
    | some ext =>
      if s.stepOf i = 4 ∧ s.campRoom ext = true then (s.issue i (.camp ext) .none).setStep i 6 else s.errorTone p
    | none => s.errorTone p
  | _ => s.errorTone p

/-- The Clear key (R82). -/
def State.keyClear (s : State) (p : Pos) (l : LoopNo) : State :=
  match s.loop p l with
  | .locked i => s.issue i .release .none
  | _ => s.errorTone p

/-- A loop key at a staffed position, for the loop it names (R67: a CLOSED position takes Open only). -/
def State.loopKey (s : State) (p : Pos) (k : KeyKind) (a : KeyArgs) (l : LoopNo) : State :=
  match k with
  | .loop => s.keyLoop p l
  | .release => s.keyRelease p l
  | .hold => s.keyHold p l
  | .park => s.keyPark p l a
  | .extend => s.keyExtend p l a
  | .cancel => s.keyCancel p l
  | .camp => s.keyCamp p l
  | .clear => s.keyClear p l
  | _ => s.errorTone p

/-! ### Evaluation and the key buffer (R73 to R75) -/

/-- A key evaluated: an argument or loop out of range, or a key not valid in the state, gives the error tone (R75). -/
def State.evalKey (s : State) (p : Pos) (k : KeyMsg) : State :=
  if loopOk k.kind k.args && argumentOk k.kind k.args then
    match k.kind with
    | .opening => s.keyOpen p
    | .closing => s.keyClose p
    | .withdraw => s.keyWithdraw p
    | .resume => s.keyResume p
    | .review => s.keyReview p
    | .answerNext => s.keyAnswerNext p
    | .pickup => s.keyPickup p k.args
    | other =>
      match loopOf k.args.loop with
      | some l => if (s.pos p).state.staffed then s.loopKey p other k.args l else s.errorTone p
      | none => s.errorTone p
  else s.errorTone p

/-- Whether a key at the head waits: a loop key whose loop refers to a record with an entry in the order list (R74). -/
def State.keyWaits (s : State) (p : Pos) (k : KeyMsg) : Bool :=
  KeyKind.isLoopKey k.kind &&
    match loopOf k.args.loop with
    | some l =>
      match (s.loop p l).slot? with
      | some i => s.inFlight i
      | none => false
    | none => false

/-- Evaluates up to n keys of a position's buffer from its head, stopping at one that waits (R74). -/
def State.drain (s : State) (p : Pos) : Nat → State
  | 0 => s
  | n + 1 =>
    match (s.pos p).keys with
    | [] => s
    | k :: rest =>
      if s.keyWaits p k then s else ((s.updPos p fun q => { q with keys := rest }).evalKey p k).drain p n

/-- Evaluates the keys of a position's buffer that do not wait. -/
def State.drainKeys (s : State) (p : Pos) : State := s.drain p (s.pos p).keys.length

/-- Evaluates, at every position, the keys whose wait has ended (R74, R132 step 5; log 22). -/
def State.drainAll (s : State) : State := allPos.foldl State.drainKeys s

/-! ### The end of an event (R132 steps 5 to 7, R127, R156) -/

/-- Sending, then the pictures. -/
def State.finishOrders (s : State) : State := s.sendOrders.refresh

/-- Offers, sending, pictures. -/
def State.finishOffers (s : State) : State := s.makeOffers.finishOrders

/-- Waiting keys, offers, sending, pictures: R132's order for a response, and the model's choice for every other event that frees
a waiting key (log 35). -/
def State.finishAll (s : State) : State := s.drainAll.finishOffers

/-- A key message that arrives at a position (R73): it joins the buffer if there is room, and the keys at the head that do not
wait are evaluated in the same event; with two keys waiting it is discarded with the error tone; a FAULTED or ABSENT position
discards it silently. -/
def State.press (s : State) (p : Pos) (k : KeyMsg) : State :=
  match (s.pos p).state with
  | .absent => s
  | .faulted => s
  | _ =>
    if (s.pos p).keys.length < Config.keyPlaces then
      ((s.updPos p fun q => { q with keys := q.keys ++ [k] }).drainKeys p).finishOffers
    else s.errorTone p

end Sys2Proof.Machine
end

