-- ==== Sys2Proof/Machine/Links.lean ====
section
/-! DEFINITION. Frames (8.3): the bytes of every outbound message (R143, R150, R153), and the receivers of the links (R144). -/

namespace Sys2Proof.Machine

/-! ### Codes (R153) -/

/-- The code of an order kind. -/
def Order.code : Order → Byte
  | .connect _ _ => 1
  | .hold => 2
  | .split => 3
  | .ringExt _ => 4
  | .dropDest => 5
  | .transfer => 6
  | .camp _ => 7
  | .retrieve => 8
  | .divert _ => 9
  | .release => 10

def Decline.code : Decline → Byte
  | .invalid => 1
  | .tenant => 2
  | .duplicate => 3
  | .full => 4

def NoticeKind.code : NoticeKind → Byte
  | .frameError => 1
  | .protocolError => 2

def LinkState.code : LinkState → Byte
  | .down => 1
  | .up => 2
  | .failed => 3

def NightState.code : NightState → Byte
  | .day => 1
  | .nightPending => 2
  | .night => 3

def PosState.code : PosState → Byte
  | .absent => 1
  | .closed => 2
  | .opened => 3
  | .withdrawn => 4
  | .faulted => 5

def Cadence.code : Cadence → Byte
  | .off => 0
  | .steady => 1
  | .slow => 2
  | .wink => 3
  | .fast => 4
  | .flicker => 5

def Tone.code : Tone → Byte
  | .ring => 1
  | .beep => 2
  | .error => 3

/-- A number of two bytes, most significant byte first (R150). -/
def twoBytes (v : BitVec 16) : List Byte := [v.extractLsb' 8 8, v.extractLsb' 0 8]

/-- A small number as one byte. -/
def oneByte (n : Nat) : Byte := BitVec.ofNat 8 n

/-- An extension: a digit count and six digit bytes, the remaining bytes 0 (R150). -/
def extBytes (ext : Digits) : List Byte :=
  oneByte ext.length :: (ext.map (fun d : Fin 10 => oneByte d.val) ++ List.replicate 6 0).take 6

/-- The argument bytes of an order, offsets 3 to 11 of ORDER (R153). -/
def Order.argBytes : Order → List Byte
  | .connect p l => [oneByte p.val, oneByte (l.val + 1)] ++ extBytes []
  | .ringExt ext => [0, 0] ++ extBytes ext
  | .camp ext => [0, 0] ++ extBytes ext
  | .divert ext => [0, 0] ++ extBytes ext
  | _ => [0, 0] ++ extBytes []

/-- The STATUS_REPLY body of 13 bytes (R150). -/
def Status.bytes (st : Status) : List Byte :=
  twoBytes st.tick ++ [st.link.code, (if st.paused then 1 else 0), st.night.code] ++ st.positions.map PosState.code ++
    [oneByte st.live, oneByte st.retiring, oneByte st.queued, oneByte st.window]

/-- Type and body of a message to the exchange controller (R150, R153). -/
def XMsg.typed : XMsg → Byte × List Byte
  | .order o ref => (Decode.typeOrder, o.code :: twoBytes ref ++ o.argBytes)
  | .callTaken ref i => (Decode.typeCallTaken, twoBytes ref ++ [oneByte i.val])
  | .callDeclined ref why => (Decode.typeCallDeclined, twoBytes ref ++ [why.code])
  | .statusReply st => (Decode.typeStatusReply, st.bytes)
  | .notice kind typ ref => (Decode.typeNotice, kind.code :: typ :: twoBytes ref)

/-- Type and body of a frame to a console (R150, R153). -/
def PosFrame.typed : PosFrame → Byte × List Byte
  | .lamp k c => (Decode.typeLamp, [oneByte (k.val + 1), c.code])
  | .display j text => (Decode.typeDisplay, oneByte (j.val + 1) :: text)
  | .tone t => (Decode.typeTone, [t.code])

/-! ### Frames (R143) -/

/-- The 8-bit sum of bytes. -/
def byteSum (bs : List Byte) : Byte := bs.foldl (fun x y => x + y) 0

/-- The characters of a frame: start, length, type, body, and the check that makes the sum 0 (R143). -/
def frameBytes (typ : Byte) (body : List Byte) : List Byte :=
  let inner := oneByte body.length :: typ :: body
  0x7E :: inner ++ [0 - byteSum inner]

/-- The characters of a message to the exchange controller. -/
def XMsg.frame (m : XMsg) : List Byte := frameBytes m.typed.1 m.typed.2

/-- The characters of a frame to a console. -/
def PosFrame.frame (f : PosFrame) : List Byte := frameBytes f.typed.1 f.typed.2

/-! ### Characters (R152) -/

/-- The levels of a character on a line: one start bit, 8 data bits least significant bit first, one stop bit, no parity. -/
def charLevels (b : Byte) : List Level := false :: (List.range 8).map b.getLsbD ++ [true]

/-- The byte of 8 data bits, least significant bit first. -/
def dataByte (bits : List Level) : Byte := BitVec.ofNat 8 (bits.foldr (fun b n => b.toNat + 2 * n) 0)

/-- The first character on a line after the levels `got` of a begun one, and the levels behind it: idle levels before a start bit
are passed over, and so is a begun character without a stop bit (DESIGN CHOICE: log 37); none while no character is complete. -/
def takeCharFrom (got : List Level) : List Level → Option (Byte × List Level)
  | [] => none
  | x :: rest =>
    if got.isEmpty && x then takeCharFrom [] rest
    else if got.length = 9 then
      if x then some (dataByte got.tail, rest) else takeCharFrom [] rest
    else takeCharFrom (got ++ [x]) rest

/-- The first character on a line and the levels behind it, if one is complete. -/
def takeChar (levels : List Level) : Option (Byte × List Level) := takeCharFrom [] levels

/-- The levels of a message on XTXD. -/
def XMsg.levels (m : XMsg) : List Level := m.frame.flatMap charLevels

/-- The levels of a frame on a position's transmit pin. -/
def PosFrame.levels (f : PosFrame) : List Level := f.frame.flatMap charLevels

/-! ### Receivers (R144) -/

/-- What a received character completes: nothing, a frame that passed its check, or a discarded frame. -/
inductive Received where
  | nothing
  | frame (typ : Byte) (body : List Byte)
  | discarded
  deriving DecidableEq, Repr

/-- The end of a frame, its type, body and check received: passed when the sum with the length is 0 (R143, R144). -/
def finishFrame (len : Nat) (got : List Byte) : Received :=
  if byteSum (oneByte len :: got) = 0 then
    match got with
    | typ :: rest => .frame typ (rest.take len)
    | [] => .discarded
  else .discarded

/-- A receiver takes a character (R144). -/
def Rx.feed (rx : Rx) (b : Byte) : Rx × Received :=
  match rx with
  | .hunting => if b = 0x7E then (.started 0, .nothing) else (.hunting, .nothing)
  | .started _ =>
    if b.toNat = 0 ∨ 60 < b.toNat then (.hunting, .discarded) else (.filling b.toNat [] 0, .nothing)
  | .filling len got _ =>
    let got' := got ++ [b]
    if got'.length = len + 2 then (.hunting, finishFrame len got') else (.filling len got' 0, .nothing)

/-- A receiver takes several characters; the completed frames and discards, in order. -/
def Rx.feedAll (rx : Rx) : List Byte → Rx × List Received
  | [] => (rx, [])
  | b :: bs =>
    let (rx1, out) := rx.feed b
    let (rx2, outs) := rx1.feedAll bs
    (rx2, if out = .nothing then outs else out :: outs)

/-- An advance of the tick counter at a receiver: one more advance since the last character of a begun frame (R144). -/
def Rx.advance : Rx → Rx
  | .hunting => .hunting
  | .started n => .started (n + 1)
  | .filling len got n => .filling len got (n + 1)

/-- A begun frame whose next character has not come by the second advance (R144). -/
def Rx.timedOut : Rx → Bool
  | .hunting => false
  | .started n => decide (2 ≤ n)
  | .filling _ _ n => decide (2 ≤ n)

/-- The receiver of a link hunts again, its begun frame, if any, discarded; on the exchange link with a FRAME_ERROR notice, on
a position link without a report (R144). An unequipped position's interface receives nothing (R154). -/
def State.discardFrame (s : State) : Link → State
  | .exchange => { s with xrx := .hunting }.transmit (.notice .frameError 0 0)
  | .position p =>
    if (s.pos p).state.equipped then s.updPos p fun q => { q with rx := .hunting } else s

/-! ### The receive lines on an empty command queue (log 8) -/

/-- The command of a receiver's outcome on a link. -/
def Received.commands (l : Link) : Received → List Instr
  | .nothing => []
  | .frame typ body => [Decode.frameCommand l typ body]
  | .discarded => [.frameError l]

/-- The exchange receiver's turn: a timed-out frame, or the next character on its line; none when neither is there. -/
def State.exchangeTurn (s : State) : Option State :=
  if s.xrx.timedOut then some { s with pending := [.frameByteTimeout .exchange] }
  else
    match takeChar s.xline with
    | some (b, rest) =>
      some { s with xline := rest, xrx := (s.xrx.feed b).1, pending := (s.xrx.feed b).2.commands .exchange }
    | none => none

/-- A position receiver's turn; the receive pin of an unequipped position is disregarded (R152, R154). -/
def State.positionTurn (s : State) (p : Pos) : Option State :=
  let q := s.pos p
  if q.state.equipped then
    if q.rx.timedOut then some { s with pending := [.frameByteTimeout (.position p)] }
    else
      match takeChar q.line with
      | some (b, rest) =>
        some { s.updPos p (fun q => { q with line := rest, rx := (q.rx.feed b).1 }) with
          pending := (q.rx.feed b).2.commands (.position p) }
      | none => none
  else none

/-- What the part does when no command waits: the receive lines are served, the exchange link first and then P0 to P3; with
no character on any line the part idles (log 8). -/
def State.idle (s : State) : State :=
  match s.exchangeTurn with
  | some t => t
  | none => (allPos.findSome? s.positionTurn).getD s

end Sys2Proof.Machine
end

