-- ==== Sys2Proof/Machine/Expiries.lean ====
section
/-! DEFINITION. The meanings of RESET, TICK and the expiry commands (chapter 2 and the chapters of each timer), of the carrier
events and of the link interfaces' own events. -/

namespace Sys2Proof.Machine

/-! ### RESET and TICK -/

/-- RESET (R151): every block takes its reset values with the straps and PCAR levels found at the release; the queue of waiting
commands is the environment's and is kept. -/
def execReset (poseq : BitVec 2) (xrate : Bool) (pcar : BitVec 4) (s : State) : Host.Outcome State Fault Refusal :=
  .next { State.atReset poseq xrate pcar with pending := s.pending }

/-- The test of the response deadline of the entry at the head of the send window, at an advance (R136): an expired one is
marked as found, for ORDER_TIMEOUT (log 4). -/
def State.testHead (s : State) : State :=
  match s.headEntry with
  | some e =>
    match e.state with
    | .sent d _ => if expired s.tick d then s.updEntry e.slot fun e' => { e' with state := .sent d true } else s
    | _ => s
  | none => s

/-- An advance at the Time Base, the order list's head and the receivers (R25, R136, R144). Whether any other deadline has
expired is a function of the new count (R30). -/
def State.advance (s : State) : State :=
  State.testHead
    { s with
      tick := s.tick + 1
      xrx := s.xrx.advance
      positions := s.positions.map fun q => { q with rx := q.rx.advance } }

/-- The PCAR pin of a position is examined at an advance (R155): a level that differs from the carrier state gives a carrier
loss or a carrier return (log 5). -/
def State.sampleCarrier (s : State) (p : Pos) (level : Bool) : State :=
  if (s.pos p).state.equipped && (s.pos p).carrier != level then
    (if level then s.carrierBack p else s.carrierLost p).finishOffers
  else s

/-- TICK (R25, R155). -/
def execTick (pcar : BitVec 4) (s : State) : Host.Outcome State Fault Refusal :=
  .next (allPos.foldl (fun t p => t.sampleCarrier p (pcarLevel pcar p)) s.advance)

/-! ### The timers of call records -/

/-- Whether the timer of a record is armed for a purpose and its deadline has expired (R30, R33). -/
def Record.due (r : Record) (now : Tick) (pu : Purpose) : Bool :=
  match r.timer with
  | some t => t.purpose == pu && !t.spent && expired now t.deadline
  | none => false

/-- An expiry is held (R35): the timer becomes spent, and the held expiry field takes its purpose. -/
def Record.hold (r : Record) (pu : Purpose) : Record :=
  { r with timer := r.timer.map fun t => { t with spent := true }, held := some pu }

/-- The expiry of a record's timer (R31, R35): held while the record has an order in flight, and otherwise delivered to its
holder, after which the event is finished. A timer that is not armed for the purpose, or not expired, gives no expiry
(log 3). -/
def State.expiry (s : State) (i : Slot) (pu : Purpose) (finish : State → State) : State :=
  match s.record? i with
  | some r =>
    if r.due s.tick pu then
      if s.inFlight i then s.updRec i fun r => r.hold pu
      else
        match r.timer with
        | some t => finish (s.deliver i pu t.deadline)
        | none => s
    else s
  | none => s

/-- AGING_EXPIRY (R39, R40). -/
def execAgingExpiry (i : Slot) (s : State) : Host.Outcome State Fault Refusal :=
  .next (s.expiry i .aging State.finishOrders)

/-- OFFER_EXPIRY (R55). -/
def execOfferExpiry (i : Slot) (s : State) : Host.Outcome State Fault Refusal :=
  .next (s.expiry i .offer State.finishOffers)

/-- HOLD_RECALL_EXPIRY (R83). -/
def execHoldRecallExpiry (i : Slot) (s : State) : Host.Outcome State Fault Refusal :=
  .next (s.expiry i .holdRecall State.refresh)

/-- ESCALATE_EXPIRY (R84). -/
def execEscalateExpiry (i : Slot) (s : State) : Host.Outcome State Fault Refusal :=
  .next (s.expiry i .escalate State.finishAll)

/-- NO_ANSWER_EXPIRY (R121). -/
def execNoAnswerExpiry (i : Slot) (s : State) : Host.Outcome State Fault Refusal :=
  .next (s.expiry i .noAnswer State.finishOrders)

/-- CAMP_TIMEOUT_EXPIRY (R119). -/
def execCampTimeoutExpiry (i : Slot) (s : State) : Host.Outcome State Fault Refusal :=
  .next (s.expiry i .campTimeout State.finishOrders)

/-- PARK_RECALL_EXPIRY (R114). -/
def execParkRecallExpiry (i : Slot) (s : State) : Host.Outcome State Fault Refusal :=
  .next (s.expiry i .parkRecall State.finishOffers)

/-! ### The deadlines of the order list, the night service and the tones -/

/-- Link failure (R137): the link is FAILED, every call and order is gone, waiting keys are evaluated at their IDLE loops, and
every staffed position receives EXCHANGE_DOWN. DESIGN CHOICE, unsafe (log 34): the keys are evaluated before EXCHANGE_DOWN is
raised. -/
def State.linkFailure (s : State) : State :=
  let s1 := { s.clearCalls with link := .failed }
  (allPos.foldl (fun t p => t.raiseKind p .exchangeDown) s1.drainAll).refresh

/-- Whether an advance has found the response deadline of the window's head expired (R136). -/
def State.headFound (s : State) : Bool :=
  match s.headEntry with
  | some e =>
    match e.state with
    | .sent _ found => found
    | _ => false
  | none => false

/-- ORDER_TIMEOUT (R136): the link fails when the head's deadline was found expired at an advance (log 4). -/
def execOrderTimeout (s : State) : Host.Outcome State Fault Refusal :=
  .next (if s.link == .up && s.headFound then s.linkFailure else s)

/-- RETRY_DEADLINE_EXPIRY (R134): a RESTING entry whose deadline has expired becomes WAITING, and sending follows. -/
def execRetryDeadlineExpiry (i : Slot) (s : State) : Host.Outcome State Fault Refusal :=
  .next
    (match s.entry? i with
      | some e =>
        match e.state with
        | .resting d =>
          if expired s.tick d then (s.updEntry i fun e' => { e' with state := .waiting }).finishOrders else s
        | _ => s
      | none => s)

/-- NIGHT_DELAY_EXPIRY (R63). -/
def execNightDelayExpiry (s : State) : Host.Outcome State Fault Refusal :=
  .next
    (match s.nightDelay with
      | some d => if expired s.tick d then s.nightEntry.finishOrders else s
      | none => s)

/-- What the tone repeat does at a position (R160): RING or BEEP and the deadline again, or nothing with no entry sounding. -/
def Position.toneDue (q : Position) (now : Tick) : Position :=
  if q.alerts.any q.sounding then { q.sound q.repeatTone with toneRepeat := some (now + Config.toneRepeat) }
  else { q with toneRepeat := none }

/-- TONE_REPEAT_EXPIRY (R160). -/
def execToneRepeatExpiry (p : Pos) (s : State) : Host.Outcome State Fault Refusal :=
  .next
    (match (s.pos p).toneRepeat with
      | some d => if expired s.tick d then s.updPos p fun q => q.toneDue s.tick else s
      | none => s)

/-! ### The link interfaces -/

/-- FRAME_BYTE_TIMEOUT (R144, log 9). -/
def execFrameByteTimeout (l : Link) (s : State) : Host.Outcome State Fault Refusal := .next (s.discardFrame l)

/-- FRAME_ERROR (R144, log 9). -/
def execFrameError (l : Link) (s : State) : Host.Outcome State Fault Refusal := .next (s.discardFrame l)

/-- CARRIER_LOSS (R69, R85, R155; log 5). -/
def execCarrierLoss (p : Pos) (s : State) : Host.Outcome State Fault Refusal := .next (s.sampleCarrier p false)

/-- CARRIER_RETURN (R69, R155, R156; log 5). -/
def execCarrierReturn (p : Pos) (s : State) : Host.Outcome State Fault Refusal := .next (s.sampleCarrier p true)

/-- ORDER_SEND (R127): the oldest WAITING entry is sent if the conditions hold (log 7). -/
def execOrderSend (s : State) : Host.Outcome State Fault Refusal := .next s.sendOne

/-- POSITION_FRAME_SEND (R156): the line of the position is free, and the head of its transmit queue is sent. -/
def execPositionFrameSend (p : Pos) (s : State) : Host.Outcome State Fault Refusal := .next (s.sendFrame p)

end Sys2Proof.Machine
end

