-- ==== Sys2Proof/Machine/Exchange.lean ====
section
/-! DEFINITION. The meanings of the exchange link's messages: the session (8.2), admission (1.4), call events, responses
(7.4), pause and resume (7.5), the table writes (8.4 to 8.6) and status (8.7). Every message's body is decoded first (R145),
and then taken or discarded by the link state (R140, log 11). -/

namespace Sys2Proof.Machine

/-- A decoded message: with no decoding, PROTOCOL_ERROR with reference 0 (R145); otherwise the action. -/
def State.decoded {α : Type} (s : State) (typ : Byte) (m : Option α) (act : α → State) : State :=
  match m with
  | some a => act a
  | none => s.protocolError typ 0

/-- A message that is taken only while the link is UP (R140). -/
def State.whileUp (s : State) (typ : Byte) (ref : CallRef) (act : State) : State :=
  if s.link = .up then act else s.protocolError typ ref

/-! ### The session (R139, R141, R142) -/

/-- The clearing of call state by RESTART (R142): waiting keys are then evaluated at their IDLE loops. -/
def State.restarted (s : State) : State := s.clearCalls.finishAll

/-- LINK_UP (R141, R142). -/
def execLinkUp (body : List Byte) (s : State) : Host.Outcome State Fault Refusal :=
  .next (s.decoded Decode.typeLinkUp (Decode.parseEmpty body) fun _ =>
    if s.link = .up then s.restarted else { s with link := .up })

/-- RESTART (R142). -/
def execRestart (body : List Byte) (s : State) : Host.Outcome State Fault Refusal :=
  .next (s.decoded Decode.typeRestart (Decode.parseEmpty body) fun _ =>
    s.whileUp Decode.typeRestart 0 s.restarted)

/-! ### Admission (R12, R13) -/

/-- Whether a slot holds a call reference, LIVE or RETIRING (R3). -/
def SlotState.holds (x : SlotState) (ref : CallRef) : Bool :=
  match x with
  | .free => false
  | .live r => r.ref == ref
  | .retiring ref' => ref' == ref

/-- The slot a call reference resolves to (R3: at most one). -/
def State.byRef (s : State) (ref : CallRef) : Option Slot := (List.finRange 128).find? fun i => (s.slot i).holds ref

/-- The lowest-numbered FREE slot (R13). -/
def State.lowestFree (s : State) : Option Slot := (List.finRange 128).find? fun i => s.slot i == .free

/-- The origin byte is TRUNK or EXTENSION (R12, R153). -/
def originOk (b : Byte) : Bool := b == 1 || b == 2

/-- A priority class as carried, clamped to 3 (R5, R12). -/
def clampPrio (b : Byte) : Fin 4 := if h : b.toNat < 4 then ⟨b.toNat, h⟩ else 3

/-- The record of an admitted call (R13). -/
def newRecord (a : Decode.Arrival) (t : TenantNo) (digits : Digits) : Record :=
  { ref := a.ref, tenant := t, prio := clampPrio a.prio, digits := digits, kind := .new, owner := none, loc := .queued,
    mark := none, claim := none, dest := none, step := 0, aging := 0, timer := none, held := none,
    overflowSpent := false }

/-- Admission into a FREE slot (R13): the record, AGING, the queue tail with count and threshold, CALL_TAKEN, and a night
DIVERT in NIGHT (R64). -/
def State.admitted (s : State) (i : Slot) (r : Record) : State :=
  let s1 := (s.setSlot i (.live r)).armAging i
  ((s1.joinTail i).transmit (.callTaken r.ref i)).nightJoin i

/-- The tenant of a tenant byte, if it is at most 15 and in service (R12). -/
def State.servedTenant (s : State) (b : Byte) : Option TenantNo :=
  if h : b.toNat < 16 then
    if (s.tenant ⟨b.toNat, h⟩).inService then some ⟨b.toNat, h⟩ else none
  else none

/-- The digits of an arrival that passes the first check of R12: reference not 0, a known origin, at most 16 digits, all of
them decimal. -/
def arrivalDigits (a : Decode.Arrival) : Option Digits :=
  if a.ref ≠ 0 ∧ originOk a.origin = true ∧ a.digits.length ≤ 16 then Decode.digits? a.digits else none

/-- An ARRIVE taken in UP, by the checks of R12 in their order. -/
def State.arrival (s : State) (a : Decode.Arrival) : State :=
  match arrivalDigits a with
  | none => s.transmit (.callDeclined a.ref .invalid)
  | some digits =>
    match s.servedTenant a.tenant with
    | none => s.transmit (.callDeclined a.ref .tenant)
    | some t =>
      if (s.byRef a.ref).isSome then
        (s.transmit (.callDeclined a.ref .duplicate)).protocolError Decode.typeArrive a.ref
      else
        match s.lowestFree with
        | none => s.transmit (.callDeclined a.ref .full)
        | some i => (s.admitted i (newRecord a t digits)).finishOffers

/-- ARRIVE (R12, R13). -/
def execArrive (body : List Byte) (s : State) : Host.Outcome State Fault Refusal :=
  .next (s.decoded Decode.typeArrive (Decode.parseArrive body) fun a =>
    s.whileUp Decode.typeArrive a.ref (s.arrival a))

/-! ### Call events -/

/-- CLEARED in UP (R16): a LIVE record is retired; a RETIRING slot or an unknown reference is ignored. DESIGN CHOICE, unsafe
(log 35): a key that the retirement frees, and the keys behind it, are evaluated before the Distributor makes its offers. -/
def State.clearedCall (s : State) (ref : CallRef) : State :=
  match s.byRef ref with
  | some i =>
    match s.record? i with
    | some _ => (s.retire i true).finishAll
    | none => s
  | none => s

/-- CLEARED (R16). -/
def execCleared (body : List Byte) (s : State) : Host.Outcome State Fault Refusal :=
  .next (s.decoded Decode.typeCleared (Decode.parseRef body) fun ref =>
    s.whileUp Decode.typeCleared ref (s.clearedCall ref))

/-- Whether a loop is in EXTEND. -/
def LoopState.isExtend : LoopState → Bool
  | .extend _ => true
  | _ => false

/-- DEST_STATE ANSWERED for a LIVE record (R96, R17): at extend step 3 the step becomes 5 with DEST_ANSWERED; an EXTENDED
record is retired; otherwise ignored. -/
def State.destAnswered (s : State) (i : Slot) : State :=
  match s.record? i with
  | some r =>
    match r.loc with
    | .loop p l =>
      if (s.loop p l).isExtend && r.step == 3 then ((s.setStep i 5).raiseLoop p .destAnswered l).refresh else s
    | .extended _ => (s.retire i false).finishAll
    | _ => s
  | none => s

/-- DEST_STATE DEST_CLEARED for a LIVE record (R96): at extend step 5 auto-return begins; otherwise ignored. -/
def State.destCleared (s : State) (i : Slot) : State :=
  match s.record? i with
  | some r =>
    match r.loc with
    | .loop p l => if (s.loop p l).isExtend && r.step == 5 then (s.returnConnect p l i).finishOrders else s
    | _ => s
  | none => s

/-- A DEST_STATE message, by its state byte (R96; R145 for another state, log 11). -/
def State.destState (s : State) (body : List Byte) : State :=
  s.decoded Decode.typeDestState (Decode.parseDestState body) fun m =>
    s.whileUp Decode.typeDestState m.1
      (if m.2 = 1 then ((s.byRef m.1).map s.destAnswered).getD s
       else if m.2 = 2 then ((s.byRef m.1).map s.destCleared).getD s
       else s.protocolError Decode.typeDestState m.1)

/-- DEST_STATE ANSWERED (R96, R17; log 10). -/
def execDestStateAnswered (body : List Byte) (s : State) : Host.Outcome State Fault Refusal := .next (s.destState body)

/-- DEST_STATE DEST_CLEARED (R96; log 10). -/
def execDestStateDestCleared (body : List Byte) (s : State) : Host.Outcome State Fault Refusal :=
  .next (s.destState body)

/-- The first camped call on an extension's list that has no order list entry (R117). -/
def State.campedNext (s : State) (ext : Digits) : Option Slot :=
  (s.camp.find? fun e => e.ext == ext).bind fun e => e.calls.find? fun i => !s.inFlight i

/-- EXT_FREE in UP (R117). -/
def State.extensionFree (s : State) (ext : Digits) : State :=
  match s.campedNext ext with
  | some i => (s.issue i (.ringExt ext) .none).finishOrders
  | none => s

/-- EXT_FREE (R117). -/
def execExtFree (body : List Byte) (s : State) : Host.Outcome State Fault Refusal :=
  .next (s.decoded Decode.typeExtFree (Decode.parseExtFree body) fun ext =>
    s.whileUp Decode.typeExtFree 0 (s.extensionFree ext))

/-! ### Responses (R128 to R133) -/

/-- A RESPONSE's outcome after the decoding rules of R128: DONE with its result byte; NO_CALL; REFUSED with any other reason, an
unknown one taken as INVALID; RETRY. -/
inductive Outcome where
  | done (result : Byte)
  | noCall
  | refused (answered : Bool)
  | retry
  deriving DecidableEq, Repr

/-- The outcome of an outcome byte and a detail byte (R128, R153). -/
def outcomeOf (o d : Byte) : Option Outcome :=
  if o = 1 then some (.done d)
  else if o = 2 then
    if d = 2 then some .noCall else some (.refused (d == 3))
  else if o = 3 then some .retry
  else none

/-- Whether NO_CALL for an entry is the response to the RELEASE of a LOCKED loop, which then becomes IDLE without an alert
(R82, R16; log 33). -/
def State.lockedRelease (s : State) (e : Entry) (r : Record) : Bool :=
  e.order == .release &&
    match r.loc with
    | .loop p l => (s.loop p l).isLocked
    | _ => false

/-- The work of a DONE or REFUSED for the entry `e`, in the sequence of R132: the entry leaves, the owner acts (a RETIRING slot
goes FREE, R18; NO_CALL retires, R131, with CALLER_GONE but at a LOCKED loop, R82), the claim is re-examined, the held expiry
settled, and the event finished. -/
def State.answered (s : State) (e : Entry) (a : Option Answer) : State :=
  let s1 := s.dropEntry e.slot
  let s2 :=
    match s1.slot e.slot, a with
    | .live r, some a => s1.ownerActs e.slot r e a
    | .live r, none => s1.retire e.slot !(s1.lockedRelease e r)
    | .retiring _, _ => s1.setSlot e.slot .free
    | .free, _ => s1
  ((s2.reexamine e.slot).settleHeld e.slot).finishAll

/-- A matched RETRY (R133): the entry leaves the window and rests with one try more; a fourth RETRY is REFUSED CONGESTION; the
entry of a RETIRING slot leaves and the slot goes FREE (R18). -/
def State.retried (s : State) (e : Entry) : State :=
  match s.slot e.slot with
  | .live _ =>
    if h : e.tries.val < 3 then
      let s1 := s.updEntry e.slot fun e' =>
        { e' with state := .resting (s.tick + s.timing.retryDelay), tries := ⟨e.tries.val + 1, by omega⟩ }
      { s1 with window := s1.window.filter fun j => j != e.slot }.finishOrders
    else s.answered e (some (.refused false))
  | _ => s.answered e none

/-- A RESPONSE in UP (R128, R129): an unknown outcome, an echo that differs from the head of the send window, or an empty
window brings a PROTOCOL_ERROR notice; otherwise the response is taken for the head entry. -/
def State.response (s : State) (m : Decode.Reply) : State :=
  match outcomeOf m.outcome m.detail, s.headEntry with
  | some o, some e =>
    if m.kind = e.order.code ∧ m.ref = e.ref then
      match o with
      | .done b => s.answered e (some (.done b))
      | .noCall => s.answered e none
      | .refused answered => s.answered e (some (.refused answered))
      | .retry => s.retried e
    else s.protocolError Decode.typeResponse m.ref
  | _, _ => s.protocolError Decode.typeResponse m.ref

/-- A RESPONSE message. -/
def State.responseMessage (s : State) (body : List Byte) : State :=
  s.decoded Decode.typeResponse (Decode.parseResponse body) fun m =>
    s.whileUp Decode.typeResponse m.ref (s.response m)

/-- RESPONSE with DONE (R130; log 10). -/
def execResponseDone (body : List Byte) (s : State) : Host.Outcome State Fault Refusal := .next (s.responseMessage body)

/-- RESPONSE with REFUSED (R130, R131; log 10). -/
def execResponseRefused (body : List Byte) (s : State) : Host.Outcome State Fault Refusal :=
  .next (s.responseMessage body)

/-- RESPONSE with RETRY (R133; log 10). -/
def execResponseRetry (body : List Byte) (s : State) : Host.Outcome State Fault Refusal := .next (s.responseMessage body)

/-! ### Pause and resume (R135) -/

/-- PAUSE (R135). -/
def execPause (body : List Byte) (s : State) : Host.Outcome State Fault Refusal :=
  .next (s.decoded Decode.typePause (Decode.parseEmpty body) fun _ =>
    s.whileUp Decode.typePause 0 { s with paused := true })

/-- RESUME (R135). -/
def execResume (body : List Byte) (s : State) : Host.Outcome State Fault Refusal :=
  .next (s.decoded Decode.typeResume (Decode.parseEmpty body) fun _ =>
    s.whileUp Decode.typeResume 0 { s with paused := false }.finishOrders)

/-! ### Tables (R147, R148, R149) -/

/-- A number clamped to a maximum (R147). -/
def clampTo (m : Nat) (b : Byte) : Nat := min m b.toNat

/-- A character of a greeting tag: a code outside 0x20-0x7E is stored as a space (R147). -/
def tagChar (b : Byte) : Byte := if 0x20 ≤ b.toNat ∧ b.toNat ≤ 0x7E then b else Config.space

/-- The tenant table entry a TENANT_SET writes (R147). -/
def tenantOfWrite (w : Decode.TenantWrite) : Tenant :=
  { inService := w.inService != 0, tag := w.tag.map tagChar, classBase := clampTo 63 w.classBase,
    agingInterval := clampInterval w.agingInterval, agingWeight := clampTo 8 w.agingWeight,
    overflowStep := clampTo 15 w.overflowStep, overflowDest := w.overflowDest, nightDest := w.nightDest,
    threshold := clampTo 127 w.threshold }

/-- TENANT_SET (R147): one whole entry; a display that shows the tenant follows (R158). -/
def execTenantSet (body : List Byte) (s : State) : Host.Outcome State Fault Refusal :=
  .next (s.decoded Decode.typeTenantSet (Decode.parseTenantSet body) fun w =>
    { s with tenants := s.tenants.set w.tenant (tenantOfWrite w) }.refresh)

/-- The timing table a TIMING_SET writes: nine intervals, clamped (R148). -/
def timingOfWrite : List (BitVec 16) → Option Timing
  | [a, b, c, d, e, f, g, h, i] =>
    some ⟨clampInterval a, clampInterval b, clampInterval c, clampInterval d, clampInterval e, clampInterval f,
      clampInterval g, clampInterval h, clampInterval i⟩
  | _ => none

/-- TIMING_SET (R148). -/
def execTimingSet (body : List Byte) (s : State) : Host.Outcome State Fault Refusal :=
  .next (s.decoded Decode.typeTimingSet ((Decode.parseTimingSet body).bind timingOfWrite) fun t => { s with timing := t })

/-- The three masks replaced (R149), and the tones after a tone mask write (R160). -/
def Position.withMasks (q : Position) (now : Tick) (w : Decode.PositionWrite) : Position :=
  Position.afterToneMask
    { q with tenantMask := w.tenantMask, latchMask := w.latchMask, toneMask := w.toneMask } now

/-- POSITION_SET (R149): ignored for an ABSENT position; offers may follow (R50). -/
def execPositionSet (body : List Byte) (s : State) : Host.Outcome State Fault Refusal :=
  .next (s.decoded Decode.typePositionSet (Decode.parsePositionSet body) fun w =>
    if (s.pos w.pos).state.equipped then (s.updPos w.pos fun q => q.withMasks s.tick w).finishOffers else s)

/-! ### Status (R150) -/

/-- The number of slots in a given condition. -/
def State.countSlots (s : State) (f : SlotState → Bool) : Nat := ((List.finRange 128).filter fun i => f (s.slot i)).length

/-- Whether a slot is LIVE. -/
def SlotState.isLive : SlotState → Bool
  | .live _ => true
  | _ => false

/-- Whether a slot is RETIRING. -/
def SlotState.isRetiring : SlotState → Bool
  | .retiring _ => true
  | _ => false

/-- The STATUS_REPLY of the current state (R150). -/
def State.status (s : State) : Status :=
  { tick := s.tick, link := s.link, paused := s.paused, night := s.night
    positions := allPos.map fun p => (s.pos p).state
    live := s.countSlots SlotState.isLive, retiring := s.countSlots SlotState.isRetiring
    queued := s.queue.length, window := s.window.length }

/-- STATUS_QUERY (R150). -/
def execStatusQuery (body : List Byte) (s : State) : Host.Outcome State Fault Refusal :=
  .next (s.decoded Decode.typeStatusQuery (Decode.parseEmpty body) fun _ => s.transmit (.statusReply s.status))

/-- UNKNOWN_MESSAGE_TYPE (R145): discarded with a PROTOCOL_ERROR notice that carries the type code and no reference. -/
def execUnknownMessageType (typ : Byte) (_body : List Byte) (s : State) : Host.Outcome State Fault Refusal :=
  .next (s.protocolError typ 0)

end Sys2Proof.Machine
end

