-- ==== Sys2Proof/Machine/KeyCommands.lean ====
section
/-! DEFINITION. The meanings of KEY and of the fifteen key rows: a key message handed to its position (R73, R154; log 6). -/

namespace Sys2Proof.Machine

/-- KEY (R145, R154, R73): a frame of a position link that passed its check. A frame that is no KEY frame is discarded without a
report, and the interface of an unequipped position receives nothing. -/
def execKey (p : Pos) (typ : Byte) (body : List Byte) (s : State) : Host.Outcome State Fault Refusal :=
  .next
    (match Decode.parseKey typ body with
      | some k => s.press p k
      | none => s)

/-- Open (R68). -/
def execOpenKey (p : Pos) (a : KeyArgs) (s : State) : Host.Outcome State Fault Refusal := .next (s.press p ⟨.opening, a⟩)

/-- Close (R68). -/
def execCloseKey (p : Pos) (a : KeyArgs) (s : State) : Host.Outcome State Fault Refusal := .next (s.press p ⟨.closing, a⟩)

/-- Withdraw (R68). -/
def execWithdrawKey (p : Pos) (a : KeyArgs) (s : State) : Host.Outcome State Fault Refusal :=
  .next (s.press p ⟨.withdraw, a⟩)

/-- Resume (R68). -/
def execResumeKey (p : Pos) (a : KeyArgs) (s : State) : Host.Outcome State Fault Refusal := .next (s.press p ⟨.resume, a⟩)

/-- Review (R164). -/
def execReviewKey (p : Pos) (a : KeyArgs) (s : State) : Host.Outcome State Fault Refusal := .next (s.press p ⟨.review, a⟩)

/-- Answer Next (R57, R76). -/
def execAnswerNextKey (p : Pos) (a : KeyArgs) (s : State) : Host.Outcome State Fault Refusal :=
  .next (s.press p ⟨.answerNext, a⟩)

/-- Pickup (R76). -/
def execPickupKey (p : Pos) (a : KeyArgs) (s : State) : Host.Outcome State Fault Refusal := .next (s.press p ⟨.pickup, a⟩)

/-- Loop (R77). -/
def execLoopKey (p : Pos) (a : KeyArgs) (s : State) : Host.Outcome State Fault Refusal := .next (s.press p ⟨.loop, a⟩)

/-- Release (R80, R98, R99). -/
def execReleaseKey (p : Pos) (a : KeyArgs) (s : State) : Host.Outcome State Fault Refusal := .next (s.press p ⟨.release, a⟩)

/-- Hold (R79). -/
def execHoldKey (p : Pos) (a : KeyArgs) (s : State) : Host.Outcome State Fault Refusal := .next (s.press p ⟨.hold, a⟩)

/-- Park (R81). -/
def execParkKey (p : Pos) (a : KeyArgs) (s : State) : Host.Outcome State Fault Refusal := .next (s.press p ⟨.park, a⟩)

/-- Extend (R93). -/
def execExtendKey (p : Pos) (a : KeyArgs) (s : State) : Host.Outcome State Fault Refusal := .next (s.press p ⟨.extend, a⟩)

/-- Cancel (R100, R101). -/
def execCancelKey (p : Pos) (a : KeyArgs) (s : State) : Host.Outcome State Fault Refusal := .next (s.press p ⟨.cancel, a⟩)

/-- Camp (R101). -/
def execCampKey (p : Pos) (a : KeyArgs) (s : State) : Host.Outcome State Fault Refusal := .next (s.press p ⟨.camp, a⟩)

/-- Clear (R82). -/
def execClearKey (p : Pos) (a : KeyArgs) (s : State) : Host.Outcome State Fault Refusal := .next (s.press p ⟨.clear, a⟩)

end Sys2Proof.Machine
end

