-- ==== Sys2Proof/Machine/Dispatch.lean ====
section
/-! DEFINITION. The meaning of every command: one arm per constructor, each one direct call. -/

namespace Sys2Proof.Machine

def exec (i : Instr) (s : State) : Host.Outcome State Fault Refusal :=
  match i with
  | .reset poseq xrate pcar => Sys2Proof.Machine.execReset poseq xrate pcar s
  | .tick pcar => Sys2Proof.Machine.execTick pcar s
  | .agingExpiry k => Sys2Proof.Machine.execAgingExpiry k s
  | .offerExpiry k => Sys2Proof.Machine.execOfferExpiry k s
  | .holdRecallExpiry k => Sys2Proof.Machine.execHoldRecallExpiry k s
  | .escalateExpiry k => Sys2Proof.Machine.execEscalateExpiry k s
  | .noAnswerExpiry k => Sys2Proof.Machine.execNoAnswerExpiry k s
  | .campTimeoutExpiry k => Sys2Proof.Machine.execCampTimeoutExpiry k s
  | .parkRecallExpiry k => Sys2Proof.Machine.execParkRecallExpiry k s
  | .orderTimeout => Sys2Proof.Machine.execOrderTimeout s
  | .retryDeadlineExpiry k => Sys2Proof.Machine.execRetryDeadlineExpiry k s
  | .nightDelayExpiry => Sys2Proof.Machine.execNightDelayExpiry s
  | .toneRepeatExpiry p => Sys2Proof.Machine.execToneRepeatExpiry p s
  | .frameByteTimeout l => Sys2Proof.Machine.execFrameByteTimeout l s
  | .frameError l => Sys2Proof.Machine.execFrameError l s
  | .carrierLoss p => Sys2Proof.Machine.execCarrierLoss p s
  | .carrierReturn p => Sys2Proof.Machine.execCarrierReturn p s
  | .linkUp body => Sys2Proof.Machine.execLinkUp body s
  | .restart body => Sys2Proof.Machine.execRestart body s
  | .arrive body => Sys2Proof.Machine.execArrive body s
  | .cleared body => Sys2Proof.Machine.execCleared body s
  | .destStateAnswered body => Sys2Proof.Machine.execDestStateAnswered body s
  | .destStateDestCleared body => Sys2Proof.Machine.execDestStateDestCleared body s
  | .extFree body => Sys2Proof.Machine.execExtFree body s
  | .responseDone body => Sys2Proof.Machine.execResponseDone body s
  | .responseRefused body => Sys2Proof.Machine.execResponseRefused body s
  | .responseRetry body => Sys2Proof.Machine.execResponseRetry body s
  | .pause body => Sys2Proof.Machine.execPause body s
  | .resume body => Sys2Proof.Machine.execResume body s
  | .tenantSet body => Sys2Proof.Machine.execTenantSet body s
  | .timingSet body => Sys2Proof.Machine.execTimingSet body s
  | .positionSet body => Sys2Proof.Machine.execPositionSet body s
  | .statusQuery body => Sys2Proof.Machine.execStatusQuery body s
  | .key p typ body => Sys2Proof.Machine.execKey p typ body s
  | .openKey p a => Sys2Proof.Machine.execOpenKey p a s
  | .closeKey p a => Sys2Proof.Machine.execCloseKey p a s
  | .withdrawKey p a => Sys2Proof.Machine.execWithdrawKey p a s
  | .resumeKey p a => Sys2Proof.Machine.execResumeKey p a s
  | .reviewKey p a => Sys2Proof.Machine.execReviewKey p a s
  | .answerNextKey p a => Sys2Proof.Machine.execAnswerNextKey p a s
  | .pickupKey p a => Sys2Proof.Machine.execPickupKey p a s
  | .loopKey p a => Sys2Proof.Machine.execLoopKey p a s
  | .releaseKey p a => Sys2Proof.Machine.execReleaseKey p a s
  | .holdKey p a => Sys2Proof.Machine.execHoldKey p a s
  | .parkKey p a => Sys2Proof.Machine.execParkKey p a s
  | .extendKey p a => Sys2Proof.Machine.execExtendKey p a s
  | .cancelKey p a => Sys2Proof.Machine.execCancelKey p a s
  | .campKey p a => Sys2Proof.Machine.execCampKey p a s
  | .clearKey p a => Sys2Proof.Machine.execClearKey p a s
  | .orderSend => Sys2Proof.Machine.execOrderSend s
  | .positionFrameSend p => Sys2Proof.Machine.execPositionFrameSend p s
  | .unknownMessageType typ body => Sys2Proof.Machine.execUnknownMessageType typ body s

end Sys2Proof.Machine
end

