-- ==== Sys2Proof/Safety.lean ====
section
/-! DEFINITION. What counts as a sound state and a safe step, in the terms the statements use: the invariants that the manual
gives of the order list, the queue, the holders of a call, the night state, a link that is not UP, the buffers and the alert
lists. -/

namespace Sys2Proof

/-- A safe outcome: the part goes on. -/
def SafeOutcome : Host.Outcome Machine.State Machine.Fault Machine.Refusal → Prop
  | .next _ => True
  | .fault _ => False
  | .refused _ => False

namespace Machine

/-- The order list against the slots and the send window (R1, R124, R127): no slot has two entries, the window holds exactly
the slots of the SENT entries, each once; every entry belongs to a LIVE slot with its reference, or to a RETIRING slot with its
reference and is SENT; and a RETIRING slot has an entry. -/
def State.ordersOk (s : State) : Prop :=
  (s.orders.map Entry.slot).Nodup ∧ s.window.Nodup ∧
  (∀ i, i ∈ s.window ↔ ∃ e ∈ s.orders, e.slot = i ∧ e.isSent = true) ∧
  (∀ e ∈ s.orders,
    (∃ r, s.slot e.slot = .live r ∧ r.ref = e.ref) ∨ (s.slot e.slot = .retiring e.ref ∧ e.isSent = true)) ∧
  ∀ i ref, s.slot i = .retiring ref → s.inFlight i = true

/-- The queue list against the records (R43): a slot stands in it exactly while its LIVE record is QUEUED, and once. -/
def State.queueOk (s : State) : Prop :=
  s.queue.Nodup ∧ ∀ i, i ∈ s.queue ↔ ∃ r, s.slot i = .live r ∧ r.loc = .queued

/-- The night state against the positions and the night delay (R61): DAY exactly when a position is staffed, and the night delay
deadline armed exactly in NIGHT_PENDING. -/
def State.nightOk (s : State) : Prop :=
  (s.night = .day ↔ ∃ p, (s.pos p).state = .opened ∨ (s.pos p).state = .withdrawn) ∧
  (s.nightDelay.isSome = true ↔ s.night = .nightPending)

/-- When the link is not UP, the order list is empty and no slot is LIVE or RETIRING (R137, R139). -/
def State.downOk (s : State) : Prop := s.link ≠ .up → s.orders = [] ∧ ∀ i, s.slot i = .free

/-- The bounds of the send window (R127), the key buffers (R73) and the tone entries of the transmit queues (R156). -/
def State.boundsOk (s : State) : Prop :=
  s.window.length ≤ 8 ∧
  ∀ p, (s.pos p).keys.length ≤ 2 ∧ ((s.pos p).txq.filter TxEntry.isTone).length ≤ 4

/-- The alert kinds that name no loop (R161). -/
def AlertKind.positionLevel : AlertKind → Bool
  | .queueThreshold | .autoWithdrawn | .exchangeDown => true
  | .offer | .holdRecall | .destBusy | .destUnobtainable | .destAnswered | .orderFailed | .lockout | .callerGone => false

/-- The place an alert entry takes: its loop, or its position-level kind (R162). -/
def Alert.place (a : Alert) : Option LoopNo × Option AlertKind :=
  match a.loop with
  | some l => (some l, none)
  | none => (none, some a.kind)

/-- The alert lists (R162): a loop-level kind names a loop and a position-level kind names none, and there is at most one entry
per loop and at most one per position-level kind. -/
def State.alertsOk (s : State) : Prop :=
  ∀ p, (∀ a ∈ (s.pos p).alerts, a.loop.isNone = a.kind.positionLevel) ∧ ((s.pos p).alerts.map Alert.place).Nodup

/-! ### The holders of a call (R10, R71) -/

/-- The slot a loop holds in TALK, HELD, RECALLING, EXTEND or LOCKED (R10, R71). -/
def LoopState.held? : LoopState → Option Slot
  | .talk i | .held i | .recalling i | .extend i | .locked i => some i
  | .idle | .alerting _ | .connecting _ => none

/-- Every loop that is not IDLE refers to a LIVE record that names it: an ALERTING loop by the offer mark of a QUEUED record, a
CONNECTING loop by the claim, and every other by the location (R7, R10, R71). -/
def State.loopsOk (s : State) : Prop :=
  ∀ p l,
    (∀ i, s.loop p l = .alerting i → ∃ r, s.slot i = .live r ∧ r.loc = .queued ∧ r.mark = some (p, l)) ∧
    (∀ i, s.loop p l = .connecting i → ∃ r c, s.slot i = .live r ∧ r.claim = some c ∧ c.pos = p ∧ c.loop = l) ∧
    ∀ i, (s.loop p l).held? = some i → ∃ r, s.slot i = .live r ∧ r.loc = .loop p l

/-- Every LIVE record is held where its location says: on its loop, in its orbit or on its extension's camp-on list, and a rescue
set member's reserved orbit is reserved for it (R10, R87); the loop of its offer mark is ALERTING for it, and the loop of its
claim CONNECTING (R7). -/
def State.recordsOk (s : State) : Prop :=
  ∀ i r, s.slot i = .live r →
    (∀ p l, r.loc = .loop p l → (s.loop p l).held? = some i) ∧
    (∀ o, r.loc = .parked o → s.orbit o = .occupied i) ∧
    (∀ ext, r.loc = .camped ext → ∃ e ∈ s.camp, e.ext = ext ∧ i ∈ e.calls) ∧
    (∀ m o, r.loc = .rescue m → m.orbit = some o → s.orbit o = .reserved i) ∧
    (∀ p l, r.mark = some (p, l) → s.loop p l = .alerting i) ∧
    ∀ c, r.claim = some c → s.loop c.pos c.loop = .connecting i

/-- Offer marks and claims (R7, R19, R20): a marked record is QUEUED with no claim, no order in flight and no timer but OFFER; a
GRANTED claim stands on a QUEUED or PARKED record whose order is a CONNECT; and a WAITING claim on a record with an order in
flight that is PARKED or has a reserved orbit. -/
def State.claimsOk (s : State) : Prop :=
  ∀ i r, s.slot i = .live r →
    (r.mark ≠ none → r.loc = .queued ∧ r.claim = none ∧ (∀ e ∈ s.orders, e.slot ≠ i) ∧
      ∀ t, r.timer = some t → t.purpose = .offer) ∧
    (∀ c, r.claim = some c → r.mark = none) ∧
    (∀ c, r.claim = some c → c.granted = true →
      (r.loc = .queued ∨ ∃ o, r.loc = .parked o) ∧ ∃ e ∈ s.orders, e.slot = i ∧ e.order.isConnect = true) ∧
    ∀ c, r.claim = some c → c.granted = false →
      (∃ e ∈ s.orders, e.slot = i) ∧ ((∃ o, r.loc = .parked o) ∨ ∃ o, s.orbit o = .reserved i)

/-- The park orbits (R110): an OCCUPIED orbit names a record PARKED in it, a RESERVED one a record whose order is a HOLD, on its
loop in TALK or in the rescue set with that orbit reserved; and no record is named by two orbits. -/
def State.orbitsOk (s : State) : Prop :=
  (∀ o i, s.orbit o = .occupied i → ∃ r, s.slot i = .live r ∧ r.loc = .parked o) ∧
  (∀ o i, s.orbit o = .reserved i → ∃ r, s.slot i = .live r ∧ (∃ e ∈ s.orders, e.slot = i ∧ e.order = .hold) ∧
    ((∃ p l, r.loc = .loop p l ∧ s.loop p l = .talk i) ∨ ∃ m, r.loc = .rescue m ∧ m.orbit = some o)) ∧
  ∀ o o' i, (s.orbit o).names i = true → (s.orbit o').names i = true → o = o'

/-- The camp-on table (R115, R101): no extension has two entries, no list is empty or holds a slot twice, every slot on a list
is CAMPED on its extension; and with the CAMP orders in the order list counted, no list can grow past 4 calls and the table not
past 16 entries. -/
def State.campOk (s : State) : Prop :=
  (s.camp.map CampEntry.ext).Nodup ∧
  (∀ e ∈ s.camp, e.calls ≠ [] ∧ e.calls.Nodup ∧ ∀ i ∈ e.calls, ∃ r, s.slot i = .live r ∧ r.loc = .camped e.ext) ∧
  (∀ e ∈ s.camp, e.calls.length + (s.campOrders.filter fun x => x == e.ext).length ≤ 4) ∧
  (∀ ext, (s.campOrders.filter fun x => x == ext).length ≤ 4) ∧
  s.camp.length + ((s.campOrders.filter fun x => !(s.camp.any fun e => e.ext == x)).eraseDups).length ≤ 16

/-- The voice path (R72, R49): at most one loop of a position holds it, by its state or by a retrieval, and at most one loop of a
position is ALERTING. -/
def State.voiceOk (s : State) : Prop :=
  ∀ p l m, (s.holdsVoice p l = true → s.holdsVoice p m = true → l = m) ∧
    ((s.loop p l).isAlerting = true → (s.loop p m).isAlerting = true → l = m)

/-- Every call has one holder, and the holders hold nothing else (R10, R7, R71, R72, R110, R115). -/
def State.holdersOk (s : State) : Prop :=
  s.loopsOk ∧ s.recordsOk ∧ s.claimsOk ∧ s.orbitsOk ∧ s.campOk ∧ s.voiceOk

/-! ### Words of the statements -/

/-- Two states of a position differ at most in its loops, alert list, tone repeat deadline, note and transmit queue. -/
def Position.sameSettings (q q' : Position) : Prop :=
  q'.state = q.state ∧ q'.keys = q.keys ∧ q'.tenantMask = q.tenantMask ∧ q'.latchMask = q.latchMask ∧
  q'.toneMask = q.toneMask ∧ q'.carrier = q.carrier ∧ q'.sent = q.sent ∧ q'.pout = q.pout ∧ q'.rx = q.rx ∧
  q'.line = q.line

/-- Every position but one is unchanged. -/
def State.sameOthers (s t : State) (p : Pos) : Prop := ∀ q, q ≠ p → t.pos q = s.pos q

/-- Every loop of a position but one is unchanged. -/
def State.sameLoops (s t : State) (p : Pos) (l : LoopNo) : Prop := ∀ m, m ≠ l → t.loop p m = s.loop p m

/-- Two states differ at most in the record of one slot, the order list, the queue, the holding places and the positions. -/
def State.sameSession (s t : State) : Prop :=
  t.pending = s.pending ∧ t.tick = s.tick ∧ t.link = s.link ∧ t.paused = s.paused ∧ t.tenants = s.tenants ∧
  t.timing = s.timing ∧ t.poseq = s.poseq ∧ t.xrate = s.xrate ∧ t.xrx = s.xrx ∧ t.xline = s.xline

/-- A new entry of the order list: WAITING, no tries (R125). -/
def Entry.fresh (i : Slot) (r : Record) (o : Order) (m : Mark) : Entry := ⟨i, r.ref, o, m, .waiting, 0⟩

/-- A position can take a key for one of its loops at once: it is staffed, its key buffer is empty and the loop byte names the
loop. -/
def State.keyAt (s : State) (p : Pos) (a : KeyArgs) (l : LoopNo) : Prop :=
  ((s.pos p).state = .opened ∨ (s.pos p).state = .withdrawn) ∧ (s.pos p).keys = [] ∧ a.loop.toNat = l.val + 1

/-- A LIVE record without an order list entry. -/
def State.settled (s : State) (i : Slot) (r : Record) : Prop := s.slot i = .live r ∧ ∀ e ∈ s.orders, e.slot ≠ i

/-- The body bytes of a RESPONSE to an entry (R153). -/
def Entry.reply (e : Entry) (outcome detail : Byte) : List Byte :=
  [e.order.code, e.ref.extractLsb' 8 8, e.ref.extractLsb' 0 8, outcome, detail]

/-- An entry stands at the head of the send window, and the link is UP, so that its response is taken (R129). -/
def State.answering (s : State) (e : Entry) : Prop :=
  s.link = .up ∧ s.window.head? = some e.slot ∧ s.entry? e.slot = some e

/-- The expiry row of a record timer's purpose (R31). -/
def expiryCommand : Purpose → Slot → Instr
  | .aging, i => .agingExpiry i
  | .offer, i => .offerExpiry i
  | .holdRecall, i => .holdRecallExpiry i
  | .escalate, i => .escalateExpiry i
  | .noAnswer, i => .noAnswerExpiry i
  | .campTimeout, i => .campTimeoutExpiry i
  | .parkRecall, i => .parkRecallExpiry i

/-- The row of a key kind. -/
def keyCommand : KeyKind → Pos → KeyArgs → Instr
  | .opening, p, a => .openKey p a
  | .closing, p, a => .closeKey p a
  | .withdraw, p, a => .withdrawKey p a
  | .resume, p, a => .resumeKey p a
  | .review, p, a => .reviewKey p a
  | .answerNext, p, a => .answerNextKey p a
  | .pickup, p, a => .pickupKey p a
  | .loop, p, a => .loopKey p a
  | .release, p, a => .releaseKey p a
  | .hold, p, a => .holdKey p a
  | .park, p, a => .parkKey p a
  | .extend, p, a => .extendKey p a
  | .cancel, p, a => .cancelKey p a
  | .camp, p, a => .campKey p a
  | .clear, p, a => .clearKey p a

/-- The key kinds in the order of their codes 1 to 15 (R153). -/
def allKeys : List KeyKind :=
  [.opening, .closing, .withdraw, .resume, .review, .answerNext, .pickup, .loop, .release, .hold, .park, .extend, .cancel,
    .camp, .clear]

/-- The carrier row of a position for the level its PCAR pin shows (R155). -/
def carrierCommand (pcar : BitVec 4) (p : Pos) : Instr :=
  if pcar.getLsbD p.val then .carrierReturn p else .carrierLoss p

/-- The carrier levels found at an advance are those the interfaces keep, so that no carrier event comes about (R155). -/
def State.carriersAgree (s : State) (pcar : BitVec 4) : Prop :=
  ∀ p, (s.pos p).state ≠ .absent → (s.pos p).carrier = pcar.getLsbD p.val

/-- What an event changes at the alert list of a position when it raises an alert for a loop: with the kind entered, the loop's
entry stands at the tail with that kind (R162). -/
def alertsAfter (q : Position) (k : AlertKind) (l : LoopNo) (old : List Alert) : List Alert :=
  if (q.state = .opened ∨ q.state = .withdrawn) ∧ q.latchMask.getLsbD k.bit = true then
    (old.filter fun a => a.loop != some l) ++ [⟨k, some l⟩]
  else old

/-- The night DIVERT that a record joining the queue receives (R64). -/
def State.nightEntries (s : State) (i : Slot) (r : Record) : List Entry :=
  if s.night = .night then
    match (s.tenant r.tenant).nightDest with
    | some d => [Entry.fresh i r (.divert d) .night]
    | none => []
  else []

/-- A record that joins the queue as a recall (R44), with the AGING deadline of its tenant. -/
def State.recalled (s : State) (r : Record) (why : RecallReason) (owner : Option Pos) : Record :=
  { r with
    kind := .recall why, owner := owner, aging := 0, overflowSpent := false, dest := none, step := 0, mark := none,
    claim := none, loc := .queued, held := none,
    timer := some ⟨.aging, s.tick + (s.tenant r.tenant).agingInterval, false⟩ }

/-- An advance, or a command after it, finds a record's timer armed for a purpose and its deadline expired (R30, R33). -/
def State.dueAt (s : State) (i : Slot) (r : Record) (pu : Purpose) (d : Tick) : Prop :=
  s.slot i = .live r ∧ r.timer = some ⟨pu, d, false⟩ ∧ (s.tick - d).toNat < 32768

/-- The AGING timer of a record that enters a wait: its tenant's interval from now, or none at 15 aging steps (R38). -/
def State.agingTimer (s : State) (r : Record) : Option Timer :=
  if r.aging.val < 15 then some ⟨.aging, s.tick + (s.tenant r.tenant).agingInterval, false⟩ else none

/-- The tone that raising an alert adds to a transmit queue: the kind is entered and in the tone mask, and fewer than four tones
stand there (R156, R160). -/
def raisedTones (q : Position) (k : AlertKind) : List TxEntry :=
  if ((q.state = .opened ∨ q.state = .withdrawn) ∧ q.latchMask.getLsbD k.bit = true) ∧ q.toneMask.getLsbD k.bit = true ∧
      (q.txq.filter TxEntry.isTone).length < 4 then [.tone k.tone]
  else []

/-- The error tone as it joins a transmit queue: while fewer than four tones stand there (R75, R156). -/
def errorTones (q : Position) : List TxEntry := if (q.txq.filter TxEntry.isTone).length < 4 then [.tone .error] else []

/-- The alert list of a position with its tone repeat deadline. -/
structure AlertView where
  alerts : List Alert
  repeats : Option Tick
  deriving DecidableEq, Repr

/-- What a position shows. -/
def State.view (s : State) (p : Pos) : AlertView := ⟨(s.pos p).alerts, (s.pos p).toneRepeat⟩

/-- The tone repeat deadline after an alert of a kind that is entered or changed to: with the kind in the tone mask it is armed
30 ticks from now, replacing the one armed, whether or not the tone finds a place; otherwise it stays (R160). -/
def State.repeatRaised (s : State) (p : Pos) (k : AlertKind) (old : Option Tick) : Option Tick :=
  if (s.pos p).toneMask.getLsbD k.bit = true then some (s.tick + 30) else old

/-- A loop's alert raised: it enters or takes the kind, at the tail (R162; the kind its entry has: log 14), and the deadline
follows R160 (a change to a silent kind leaves it: log 30). A kind that is not entered changes nothing. -/
def State.viewRaised (s : State) (p : Pos) (k : AlertKind) (l : LoopNo) (a : AlertView) : AlertView :=
  ⟨alertsAfter (s.pos p) k l a.alerts,
    if ((s.pos p).state = .opened ∨ (s.pos p).state = .withdrawn) ∧ (s.pos p).latchMask.getLsbD k.bit = true then
      s.repeatRaised p k a.repeats
    else a.repeats⟩

/-- Entries leave the list (R163): when the last sounding one leaves, the tone repeat deadline is disarmed (R160). -/
def State.viewKept (s : State) (p : Pos) (keep : Alert → Bool) (a : AlertView) : AlertView :=
  ⟨a.alerts.filter keep,
    if (∃ x ∈ a.alerts, (s.pos p).toneMask.getLsbD x.kind.bit = true) ∧
      ∀ x ∈ a.alerts, keep x = true → (s.pos p).toneMask.getLsbD x.kind.bit = false then none else a.repeats⟩

/-- The entry of a loop leaves the list. -/
def State.viewWithout (s : State) (p : Pos) (l : LoopNo) (a : AlertView) : AlertView :=
  s.viewKept p (fun x => x.loop != some l) a

/-- The entry of a loop leaves the list if it has a kind. -/
def State.viewWithoutKind (s : State) (p : Pos) (l : LoopNo) (k : AlertKind) (a : AlertView) : AlertView :=
  s.viewKept p (fun x => !(x.loop == some l && x.kind == k)) a

/-- An event's own work at one loop: the loop's new state, the position's alert list with its tone repeat deadline, its note,
and the tones added to its transmit queue. Every other loop and position and every setting stay. -/
def State.workAt (s u : State) (p : Pos) (l : LoopNo) (x : LoopState) (shown : AlertView) (note : Option Note)
    (tones : List TxEntry) : Prop :=
  u.loop p l = x ∧ s.sameLoops u p l ∧ s.sameOthers u p ∧ (s.pos p).sameSettings (u.pos p) ∧
  u.view p = shown ∧ (u.pos p).note = note ∧ (u.pos p).txq = (s.pos p).txq ++ tones

/-- Whether a position shows QUEUE_THRESHOLD after the queued count of a tenant has risen to what `u` holds (R46, R162). -/
def State.reachesThreshold (u : State) (q : Position) (t : TenantNo) : Prop :=
  (u.tenant t).threshold ≠ 0 ∧ u.queuedCount t = (u.tenant t).threshold ∧ q.tenantMask.getLsbD t.val = true ∧
  (q.state = .opened ∨ q.state = .withdrawn) ∧ q.latchMask.getLsbD AlertKind.queueThreshold.bit = true

/-- A position shows a new QUEUE_THRESHOLD entry at the tail of its alert list, which sounds its tone and arms the deadline as
R156 and R160 say; loops, note and settings stay as they were (R46, R162). -/
def State.thresholdRaised (s u : State) (p : Pos) : Prop :=
  (s.pos p).sameSettings (u.pos p) ∧ (u.pos p).loops = (s.pos p).loops ∧ (u.pos p).note = (s.pos p).note ∧
  (u.pos p).alerts = (s.pos p).alerts ++ [⟨.queueThreshold, none⟩] ∧
  (u.pos p).toneRepeat =
    (if (s.pos p).toneMask.getLsbD AlertKind.queueThreshold.bit = true then some (u.tick + 30) else (s.pos p).toneRepeat) ∧
  (u.pos p).txq = (s.pos p).txq ++ raisedTones (s.pos p) .queueThreshold

/-- The positions after a record of a tenant has joined the queue (R46): a position that reaches the threshold and shows no
QUEUE_THRESHOLD has a new entry; every other position is as before. -/
def State.thresholdShown (s u : State) (t : TenantNo) : Prop :=
  ∀ p,
    (u.reachesThreshold (s.pos p) t → (∀ a ∈ (s.pos p).alerts, a.kind ≠ .queueThreshold) → s.thresholdRaised u p) ∧
    (¬ u.reachesThreshold (s.pos p) t ∨ (∃ a ∈ (s.pos p).alerts, a.kind = .queueThreshold) → u.pos p = s.pos p)

/-- A reference is held by at most one slot, and reference 0 by none (R3, R5). -/
def State.refsOk (s : State) : Prop :=
  (∀ i j ref, (s.slot i).holds ref = true → (s.slot j).holds ref = true → i = j) ∧ ∀ i, (s.slot i).holds 0 = false

/-- While an alert entry sounds at a position, its tone repeat deadline is armed (R160). -/
def State.tonesOk (s : State) : Prop :=
  ∀ p, ((s.pos p).alerts.any fun a => (s.pos p).toneMask.getLsbD a.kind.bit) = true → (s.pos p).toneRepeat.isSome = true

/-- The calls camped on an extension, in their order (R115). -/
def State.campedOn (s : State) (ext : Digits) : List Slot :=
  match s.camp.find? fun e => e.ext == ext with
  | some e => e.calls
  | none => []

/-- A call has left its camp-on list: it is taken out, the other calls keep their order, and an entry left empty is freed; with no
extension in two entries, each list is as before without the call (R15, R115). -/
def State.campLeft (s u : State) (i : Slot) : Prop :=
  u.camp = ((s.camp.map fun e => { e with calls := e.calls.filter fun j => j != i }).filter fun e => e.calls ≠ []) ∧
  ((s.camp.map CampEntry.ext).Nodup → ∀ ext, u.campedOn ext = (s.campedOn ext).filter fun j => j != i)

/-- There is room on the camp-on table for a destination (R101). With an entry in the table or a CAMP in the order list: its calls
and its CAMP entries are fewer than 4. With neither: the entries in use and the other extensions that have a CAMP in the order list
but no entry are fewer than 16. -/
def State.hasRoom (s : State) (ext : Digits) : Prop :=
  let asked := s.orders.filterMap fun e =>
    match e.order with
    | .camp x => some x
    | _ => none
  let entered := fun x => ∃ e ∈ s.camp, e.ext = x
  (entered ext ∨ ext ∈ asked →
    ((s.camp.filter fun e => e.ext = ext).map fun e => e.calls.length).sum + asked.count ext < 4) ∧
  (¬ entered ext → ext ∉ asked → s.camp.length + ((asked.filter fun x => ¬ entered x).eraseDups).length < 16)

/-- What a record's retirement or departure takes out of the holders (R15, R16): its queue place, its orbit and reservation, its
camp-on place and its loops. -/
def State.letGo (s u : State) (i : Slot) (r : Record) : Prop :=
  u.queue = (if r.loc = .queued then s.queue.filter (fun j => j != i) else s.queue) ∧
  (∀ o, u.orbit o = if s.orbit o = .occupied i ∨ s.orbit o = .reserved i then .empty else s.orbit o) ∧
  ((∃ y, r.loc = .camped y) → s.campLeft u i) ∧ ((∀ y, r.loc ≠ .camped y) → u.camp = s.camp) ∧
  (∀ p l, u.loop p l = if (p, l) ∈ r.loops then .idle else s.loop p l) ∧
  ∀ p, (s.pos p).sameSettings (u.pos p)

/-- The loops of a position that had the call of a record: its holder, its offer mark, its claim (R16). -/
def Record.loopsAt (r : Record) (p : Pos) : List LoopNo := (r.loops.filter fun x => x.1 = p).map Prod.snd

/-- The loops that lost their call have entries of a kind, in their order at the tail, and have no other entry; the deadline
follows (R16, R160, R163). -/
def State.viewGone (s : State) (p : Pos) (k : AlertKind) (ls : List LoopNo) : AlertView :=
  ls.foldl (fun a l => s.viewRaised p k l a) (s.viewKept p (fun x => ls.all fun l => x.loop != some l) (s.view p))

/-- What the positions show after the caller of a record has gone (R16, R159): every loop that had the call, be it one or two, has
a CALLER_GONE entry, the note of the last of them stands at its position, and each entry that sounds adds its tone while fewer
than four stand in the transmit queue and arms the tone repeat deadline; a position without such a loop is as before. -/
def State.goneShown (s u : State) (i : Slot) (r : Record) : Prop :=
  ∀ p,
    (r.loopsAt p = [] → u.pos p = s.pos p) ∧
    u.view p = s.viewGone p .callerGone (r.loopsAt p) ∧
    (u.pos p).note = (match (r.loopsAt p).getLast? with
      | some l => some ⟨s.tagLine (some i) l, AlertKind.callerGone.text⟩
      | none => (s.pos p).note) ∧
    (u.pos p).txq = (s.pos p).txq ++
      (if ((s.pos p).state = .opened ∨ (s.pos p).state = .withdrawn) ∧
          (s.pos p).latchMask.getLsbD AlertKind.callerGone.bit = true ∧
          (s.pos p).toneMask.getLsbD AlertKind.callerGone.bit = true then
        List.replicate (min (r.loopsAt p).length (4 - ((s.pos p).txq.filter TxEntry.isTone).length)) (.tone .beep)
      else [])

/-- The bytes of an extension field with any bytes after its digits (R150, R153). -/
def extField (ext : Digits) (pad : List Byte) : List Byte :=
  BitVec.ofNat 8 ext.length :: ext.map (fun d : Fin 10 => BitVec.ofNat 8 d.val) ++ pad

/-- An extension field of seven bytes: no digit or 2 to 6 digits, and as many further bytes as fill it. -/
def extFieldOk (ext : Digits) (pad : List Byte) : Prop := ext.length ≠ 1 ∧ ext.length + pad.length = 6

/-- An interval as a table keeps it: 0 is 1, and above 32767 is 32767 (R27). -/
def keptInterval (v : BitVec 16) : Interval := if v.toNat = 0 then 1 else if 32767 < v.toNat then 32767 else v

/-- The two bytes of a number, most significant first (R150). -/
def wordBytes (v : BitVec 16) : List Byte := [v.extractLsb' 8 8, v.extractLsb' 0 8]

/-- The state with a PROTOCOL_ERROR notice sent (R145). -/
def State.noticed (s : State) (typ : Byte) (ref : CallRef) : State :=
  { s with xout := s.xout ++ [.notice .protocolError typ ref] }

/-- The state without the entry of a slot in the order list and in the send window (R130). -/
def State.withoutEntry (s : State) (i : Slot) : State :=
  { s with orders := s.orders.filter (fun e => e.slot != i), window := s.window.filter (fun j => j != i) }

/-- A key of any kind can be evaluated at once at a position: its buffer is empty, and a loop key's loop refers to no record with
an order in flight (R74). -/
def State.keyFree (s : State) (p : Pos) (k : KeyKind) (a : KeyArgs) : Prop :=
  (s.pos p).keys = [] ∧ (KeyKind.isLoopKey k = true → ∀ l i, a.loop.toNat = l.val + 1 → (s.loop p l).slot? = some i →
    ∀ e ∈ s.orders, e.slot ≠ i)

/-- The key at the head of a position's buffer waits: it is a loop key and its loop refers to a record with an order in flight
(R74). -/
def State.waitsAt (s : State) (p : Pos) (k : KeyMsg) : Prop :=
  KeyKind.isLoopKey k.kind = true ∧ ∃ l i, k.args.loop.toNat = l.val + 1 ∧ (s.loop p l).slot? = some i ∧
    ∃ e ∈ s.orders, e.slot = i

/-- The record of a slot carries a GRANTED claim. -/
def State.claimGranted (s : State) (i : Slot) : Bool :=
  match s.slot i with
  | .live r => r.claim.any Claim.granted
  | _ => false

/-- The orders issued for the call of one loop when its position fails (R86): none with an order in flight; otherwise the rescue
order of its loop's state and step, or the night DIVERT of a call that joins the queue in the night state of `u`. -/
def State.rescueEntries (s u : State) (p : Pos) (l : LoopNo) : List Entry :=
  match (s.loop p l).slot? with
  | none => []
  | some i =>
    match s.slot i with
    | .live r =>
      if ∃ e ∈ s.orders, e.slot = i then []
      else
        match s.loop p l with
        | .talk _ => [Entry.fresh i r .hold .none]
        | .held _ | .recalling _ => u.nightEntries i r
        | .extend _ =>
          if r.step = 3 then [Entry.fresh i r .transfer .unscreened]
          else if r.step = 5 then [Entry.fresh i r .transfer .screened]
          else u.nightEntries i r
        | .locked _ => [Entry.fresh i r .release .none]
        | .idle | .alerting _ | .connecting _ => []
    | _ => []

/-- The call that joins the queue from a loop of a failed position: HELD, RECALLING, or EXTEND at a step other than 3 and 5, with
no order in flight (R86). -/
def State.rescuedToQueue (s : State) (p : Pos) (l : LoopNo) : Option Slot :=
  match s.loop p l with
  | .held i | .recalling i => if ∃ e ∈ s.orders, e.slot = i then none else some i
  | .extend i => if (∃ e ∈ s.orders, e.slot = i) ∨ s.stepOf i = 3 ∨ s.stepOf i = 5 then none else some i
  | _ => none

/-- The queue list after some loops of a failed position, taken in order: the calls with a GRANTED claim of these loops have left
it, and those the rescue queues stand at its tail (R86, R88, R43). -/
def State.rescueQueue (s : State) (p : Pos) (ls : List LoopNo) : List Slot :=
  (s.queue.filter fun i => !(ls.any fun l => s.loop p l == .connecting i && s.claimGranted i)) ++
    ls.filterMap fun l => s.rescuedToQueue p l

/-- A call that joins the queue in a rescue brings its tenant to its threshold at a position: with the queue as it is after the
loops up to its own, the tenant's count is the threshold, and the position would enter QUEUE_THRESHOLD for the tenant (R46). -/
def State.rescueReaches (s : State) (p q : Pos) : Prop :=
  ∃ l i t, s.rescuedToQueue p l = some i ∧ s.tenantOf i = some t ∧ (s.tenant t).threshold ≠ 0 ∧
    ((s.rescueQueue p ((List.finRange 6).take (l.val + 1))).filter fun j => s.tenantOf j == some t).length =
      (s.tenant t).threshold ∧
    (s.pos q).tenantMask.getLsbD t.val = true ∧ ((s.pos q).state = .opened ∨ (s.pos q).state = .withdrawn) ∧
    (s.pos q).latchMask.getLsbD AlertKind.queueThreshold.bit = true

/-- The transmit queue in step with a wanted picture (R156): the tones, the items a carrier return put there and those that differ
keep their places, an item that differs no longer is out, and each one that differs and did not stand there joins the tail (the
order of several: log 12; the items of a carrier return: log 13). -/
def State.txqInStep (s : State) (p : Pos) : List TxEntry :=
  ((s.pos p).txq.filter fun
    | .tone _ => true
    | .item it forced => forced || s.itemDiffers p it) ++
  (allItems.filter fun it => s.itemDiffers p it && !((s.pos p).txq.any fun x => x.isItem it)).map fun it => .item it false

/-- The character codes of a text (R153). -/
def chars (text : String) : List Byte := text.toList.map fun c => BitVec.ofNat 8 c.toNat

/-- The characters of a digit string. -/
def numeral (ds : Digits) : List Byte := ds.map fun d => BitVec.ofNat 8 (48 + d.val)

/-- The state after the error tone at a position (R75, R156): a tone at the tail of the transmit queue, if fewer than four stand
there. -/
def State.errored (s : State) (p : Pos) : State :=
  s.updPos p fun q => { q with
    txq := q.txq ++ if (q.txq.filter TxEntry.isTone).length < 4 then [.tone .error] else [] }

end Machine
end Sys2Proof
end

