-- ==== Sys2Proof/Certificates/Slice0/Obligations.lean ====
section
/-! DEFINITION. The statements for the provers. A statement about an event gives the state its own work leaves, and then the
end of the event: `finishOrders` (sending and pictures), `finishOffers` (offers, then those) or `finishAll` (waiting keys, then
those), in the order of R132 (after CLEARED the model's choice: log 35); what these do and leave alone is stated under
`EndOfEventIsComplete`, `OffersAndSendingLeaveTheRest` and the statements on the Distributor and on sending. The alert list of
a position is stated with its tone repeat deadline (`AlertView`): an alert of the kind its entry has moves and sounds (log 14),
and a change to a silent kind leaves the deadline (log 30). -/

open Sys2Proof Sys2Proof.Machine

/-! ### The queue of commands, reset and the invariants -/

/-- One command is one event, taken from the front of the queue; with none waiting and no character or timed-out frame on the
exchange link or the link of an equipped position the part idles (the model's choice: logs 2 and 8; an unequipped position's
receive pin is disregarded, R152). -/
def Obligations.StepTakesTheFrontCommand : Prop :=
  (∀ (s : State) (c : Instr) (rest : List Instr), s.pending = c :: rest → step s = exec c { s with pending := rest }) ∧
  ∀ s : State, s.pending = [] → s.xrx.timedOut = false → takeChar s.xline = none →
    (∀ p, (s.pos p).state = .absent ∨ ((s.pos p).rx.timedOut = false ∧ takeChar (s.pos p).line = none)) → step s = .next s

/-- What the release of RESET leaves (R151 and the rules it names), for every strap and carrier and from every state; the carrier
of an equipped position is the level its PCAR pin shows (R155). The last
line is the model's own: the queue of commands is the environment's and stays (log 2), the receive lines are empty (log 8), and
so are the records of what was sent (log 19); the start-up picture and the other fields of an ABSENT position, which has none,
are the model's values too (log 20). -/
def Obligations.ResetGivesTheResetState : Prop :=
  ∀ (s : State) (poseq : BitVec 2) (xrate : Bool) (pcar : BitVec 4),
    ∃ t, exec (.reset poseq xrate pcar) s = .next t ∧
      t.tick = 0 ∧ t.nightDelay = none ∧ (∀ i, t.slot i = .free) ∧ t.queue = [] ∧ t.pointer = 0 ∧ t.night = .night ∧
      (∀ o, t.orbit o = .empty) ∧ t.camp = [] ∧ t.orders = [] ∧ t.window = [] ∧ t.paused = false ∧ t.link = .down ∧
      t.poseq = poseq ∧ t.xrate = xrate ∧ t.xrx = .hunting ∧
      (∀ n, (t.tenant n).inService = false ∧ (t.tenant n).tag = List.replicate 16 0x20 ∧ (t.tenant n).classBase = 0 ∧
        (t.tenant n).agingInterval = 100 ∧ (t.tenant n).agingWeight = 2 ∧ (t.tenant n).overflowStep = 0 ∧
        (t.tenant n).overflowDest = none ∧ (t.tenant n).nightDest = none ∧ (t.tenant n).threshold = 0) ∧
      t.timing = ⟨150, 300, 300, 250, 600, 900, 100, 5, 20⟩ ∧
      (∀ p, (t.pos p).state =
          (if p.val ≤ poseq.toNat then (if pcar.getLsbD p.val then .closed else .faulted) else .absent) ∧
        (t.pos p).carrier = (decide (p.val ≤ poseq.toNat) && pcar.getLsbD p.val) ∧
        (∀ l, t.loop p l = .idle) ∧ (t.pos p).keys = [] ∧ (t.pos p).alerts = [] ∧ (t.pos p).note = none ∧
        (t.pos p).tenantMask = 0xFFFF ∧ (t.pos p).latchMask = 0x7FF ∧ (t.pos p).toneMask = 0x543 ∧
        (t.pos p).toneRepeat = none ∧ (t.pos p).rx = .hunting ∧
        (∀ k : Fin 9, (t.pos p).sent.lamps[k] = .off) ∧ (∀ j : Fin 2, (t.pos p).sent.lines[j] = List.replicate 20 0x20) ∧
        (t.pos p).txq = (if p.val ≤ poseq.toNat then [.item (.lamp 8) false] else [])) ∧
      t.pending = s.pending ∧ t.xline = [] ∧ t.xout = [] ∧ ∀ p, (t.pos p).pout = [] ∧ (t.pos p).line = []

/-- The machine after reset meets every invariant below. -/
def Obligations.ResetMeetsTheInvariants : Prop :=
  State.reset.ordersOk ∧ State.reset.queueOk ∧ State.reset.nightOk ∧ State.reset.downOk ∧ State.reset.boundsOk ∧
  State.reset.alertsOk ∧ State.reset.refsOk ∧ State.reset.tonesOk ∧ State.reset.holdersOk

/-- Every step keeps the order list, the send window and the slots in the relation of R1, R124 and R127, and keeps each call
reference in at most one LIVE or RETIRING slot and 0 in none (R3, R5). -/
def Obligations.StepKeepsOrdersOk : Prop :=
  (∀ s t : State, s.ordersOk → step s = .next t → t.ordersOk) ∧ ∀ s t : State, s.refsOk → step s = .next t → t.refsOk

/-- Every step keeps the queue list in step with the QUEUED records (R43), and, in a state whose order list and queue list are
sound, every call with one holder and every holder with its own calls: loops, offer marks and claims, park orbits with their
reservations, the camp-on table within its 16 entries of 4 calls, and at most one loop of a position on the voice path and one
ALERTING (R10, R7, R71, R72, R110, R115, R101). -/
def Obligations.StepKeepsQueueOk : Prop :=
  (∀ s t : State, s.queueOk → step s = .next t → t.queueOk) ∧
  ∀ s t : State, s.ordersOk → s.queueOk → s.holdersOk → step s = .next t → t.holdersOk

/-- Every step keeps the night state in step with the staffed positions (R61). -/
def Obligations.StepKeepsNightOk : Prop := ∀ s t : State, s.nightOk → step s = .next t → t.nightOk

/-- Every step keeps the order list empty and every slot FREE while the link is not UP (R137, R139). -/
def Obligations.StepKeepsDownOk : Prop := ∀ s t : State, s.downOk → step s = .next t → t.downOk

/-- Every step keeps the bounds of the window, the key buffers and the tone entries, and the form of the alert lists, which
bounds them to 9 entries; a sounding entry keeps its tone repeat deadline armed (R127, R73, R156, R162, R160). -/
def Obligations.StepKeepsTheBounds : Prop :=
  (∀ s t : State, s.boundsOk → step s = .next t → t.boundsOk) ∧
  (∀ s t : State, s.alertsOk → step s = .next t → t.alertsOk) ∧
  (∀ s t : State, s.tonesOk → step s = .next t → t.tonesOk) ∧
  ∀ s : State, s.alertsOk → ∀ p, (s.pos p).alerts.length ≤ 9

/-! ### Frames (8.3) -/

/-- A frame of any type and of 1 to 60 body bytes, read from its start byte on, gives exactly that type and body (R143). A
hunting receiver disregards every byte but a start byte; a length of 0 or above 60 discards the frame at the length byte; a
frame whose check does not bring the sum to 0 is discarded at the check byte; and a begun frame times out at the second advance
after its last byte (R144). A completed frame of the exchange link is the command of its type, with DEST_STATE and RESPONSE told
apart by their state and outcome bytes (R145, R150; the rows: log 10), and a step on an empty queue takes the next character of
the exchange link, or with none there of the first equipped position that has one, and puts the command it completes into the
queue; a frame of a position is the KEY command with its type and body (log 8). A character on a line is a start bit, 8 data bits
least significant bit first and a stop bit (R152; the levels: log 36), and is read so behind any idle levels. The bodies of the
outbound messages and frames are those of R150 and R153. -/
def Obligations.FramesAreReadBackOrDiscarded : Prop :=
  (∀ (typ : Byte) (body : List Byte), 1 ≤ body.length → body.length ≤ 60 →
    Rx.hunting.feedAll (frameBytes typ body) = (.hunting, [.frame typ body])) ∧
  (∀ b : Byte, b ≠ 0x7E → Rx.hunting.feed b = (.hunting, .nothing)) ∧
  (∀ len : Byte, len = 0 ∨ 60 < len.toNat → Rx.hunting.feedAll [0x7E, len] = (.hunting, [.discarded])) ∧
  (∀ (typ check : Byte) (body : List Byte), 1 ≤ body.length → body.length ≤ 60 →
    BitVec.ofNat 8 body.length + typ + body.foldl (fun x y => x + y) 0 + check ≠ 0 →
    Rx.hunting.feedAll ([0x7E, BitVec.ofNat 8 body.length, typ] ++ body ++ [check]) = (.hunting, [.discarded])) ∧
  (∀ (rx : Rx) (b : Byte), (rx.feed b).1.timedOut = false ∧ (rx.feed b).1.advance.timedOut = false ∧
    ((rx.feed b).1.advance.advance.timedOut = true ↔ (rx.feed b).1 ≠ .hunting)) ∧
  (∀ body : List Byte,
    Decode.exchangeCommand 0x01 body = .linkUp body ∧ Decode.exchangeCommand 0x02 body = .restart body ∧
    Decode.exchangeCommand 0x03 body = .arrive body ∧ Decode.exchangeCommand 0x04 body = .cleared body ∧
    Decode.exchangeCommand 0x06 body = .extFree body ∧ Decode.exchangeCommand 0x08 body = .pause body ∧
    Decode.exchangeCommand 0x09 body = .resume body ∧ Decode.exchangeCommand 0x0A body = .tenantSet body ∧
    Decode.exchangeCommand 0x0B body = .timingSet body ∧ Decode.exchangeCommand 0x0C body = .positionSet body ∧
    Decode.exchangeCommand 0x0D body = .statusQuery body ∧
    (∀ hi lo x, body = [hi, lo, x] → Decode.exchangeCommand 0x05 body =
      if x = 2 then .destStateDestCleared body else .destStateAnswered body) ∧
    (∀ k hi lo o d, body = [k, hi, lo, o, d] → Decode.exchangeCommand 0x07 body =
      if o = 2 then .responseRefused body else if o = 3 then .responseRetry body else .responseDone body) ∧
    ∀ typ : Byte, typ = 0 ∨ 13 < typ.toNat → Decode.exchangeCommand typ body = .unknownMessageType typ body) ∧
  (∀ s : State, s.pending = [] →
    (s.xrx.timedOut = true → step s = .next { s with pending := [.frameByteTimeout .exchange] }) ∧
    ∀ b rest, s.xrx.timedOut = false → takeChar s.xline = some (b, rest) →
      step s = .next { s with
        xline := rest, xrx := (s.xrx.feed b).1
        pending := match (s.xrx.feed b).2 with
          | .nothing => []
          | .frame typ body => [Decode.exchangeCommand typ body]
          | .discarded => [.frameError .exchange] }) ∧
  (∀ (s : State) (p : Pos), s.pending = [] → s.xrx.timedOut = false → takeChar s.xline = none →
    (∀ q < p, (s.pos q).state = .absent ∨ ((s.pos q).rx.timedOut = false ∧ takeChar (s.pos q).line = none)) →
    (s.pos p).state ≠ .absent →
    ((s.pos p).rx.timedOut = true → step s = .next { s with pending := [.frameByteTimeout (.position p)] }) ∧
    ∀ b rest, (s.pos p).rx.timedOut = false → takeChar (s.pos p).line = some (b, rest) →
      step s = .next { s.updPos p (fun q => { q with line := rest, rx := (q.rx.feed b).1 }) with
        pending := match ((s.pos p).rx.feed b).2 with
          | .nothing => []
          | .frame typ body => [.key p typ body]
          | .discarded => [.frameError (.position p)] }) ∧
  (∀ (b : Byte) (n : Nat) (rest : List Level),
    charLevels b = [false, b.getLsbD 0, b.getLsbD 1, b.getLsbD 2, b.getLsbD 3, b.getLsbD 4, b.getLsbD 5, b.getLsbD 6,
      b.getLsbD 7, true] ∧
    takeChar (List.replicate n true ++ charLevels b ++ rest) = some (b, rest) ∧ takeChar (List.replicate n true) = none) ∧
  (∀ (ref : CallRef) (p : Pos) (l : LoopNo) (ext : Digits) (n : Nat) (typ : Byte) (i : Slot), ext.length + n = 6 →
    (∀ o, (XMsg.order o ref).typed = (0x21, o.code :: wordBytes ref ++
      match o with
      | .connect p l => [BitVec.ofNat 8 p.val, BitVec.ofNat 8 (l.val + 1), 0, 0, 0, 0, 0, 0, 0]
      | .ringExt _ | .camp _ | .divert _ => o.argBytes
      | _ => [0, 0, 0, 0, 0, 0, 0, 0, 0])) ∧
    (∀ o ∈ [Order.ringExt ext, .camp ext, .divert ext], o.argBytes = [0, 0] ++ extField ext (List.replicate n 0)) ∧
    [Order.connect p l, .hold, .split, .ringExt ext, .dropDest, .transfer, .camp ext, .retrieve, .divert ext,
      .release].map Order.code = [1, 2, 3, 4, 5, 6, 7, 8, 9, 10] ∧
    (XMsg.callTaken ref i).typed = (0x22, wordBytes ref ++ [BitVec.ofNat 8 i.val]) ∧
    [Decline.invalid, .tenant, .duplicate, .full].map (fun w => (XMsg.callDeclined ref w).typed) =
      [1, 2, 3, 4].map (fun c : Byte => (0x23, wordBytes ref ++ [c])) ∧
    (XMsg.notice .frameError typ ref).typed = (0x25, [1, typ] ++ wordBytes ref) ∧
    (XMsg.notice .protocolError typ ref).typed = (0x25, [2, typ] ++ wordBytes ref)) ∧
  (∀ st : Status,
    let link : Byte := match st.link with | .down => 1 | .up => 2 | .failed => 3
    let paused : Byte := if st.paused then 1 else 0
    let night : Byte := match st.night with | .day => 1 | .nightPending => 2 | .night => 3
    let position : PosState → Byte
      | .absent => 1
      | .closed => 2
      | .opened => 3
      | .withdrawn => 4
      | .faulted => 5
    (XMsg.statusReply st).typed = ((0x24 : Byte), wordBytes st.tick ++ [link, paused, night] ++ st.positions.map position ++
      [BitVec.ofNat 8 st.live, BitVec.ofNat 8 st.retiring, BitVec.ofNat 8 st.queued, BitVec.ofNat 8 st.window])) ∧
  ∀ (k : Fin 9) (j : Fin 2) (text : List Byte),
    [Cadence.off, .steady, .slow, .wink, .fast, .flicker].map (fun c => (PosFrame.lamp k c).typed) =
      [0, 1, 2, 3, 4, 5].map (fun c : Byte => (0x32, [BitVec.ofNat 8 (k.val + 1), c])) ∧
    (PosFrame.display j text).typed = (0x33, BitVec.ofNat 8 (j.val + 1) :: text) ∧
    [Tone.ring, .beep, .error].map (fun x => (PosFrame.tone x).typed) = [1, 2, 3].map (fun c : Byte => (0x34, [c]))

/-! ### The end of an event -/

/-- After offers, sending and pictures nothing of the three is left to do: no offer is possible, the oldest WAITING entry stays
unsent only where sending is not allowed, and every item of an equipped position that differs from what its console last
received stands in the transmit queue; one that differs no longer does not, but for those of a carrier return (log 13), and
none stands there twice (R50, R127, R156). Bringing the pictures in step changes the transmit queues alone, as R156 says (the
order of several items that join in one event: log 12). The end of an event that may free a waiting key evaluates, before that,
every key that does not wait: then every key buffer is empty or waits at its head for an order in flight, a lone key is
evaluated as its key row does it, and with every buffer empty or waiting nothing is evaluated; of several keys the head of the
first position that has one to evaluate comes first (the order of positions: log 22), with its row's effect, it leaves the
buffer, and the end of the event goes on with the rest of the buffer from the state it leaves, where the next key is the head
(R74, R132). -/
def Obligations.EndOfEventIsComplete : Prop :=
  (∀ s : State,
    s.finishOffers.nextOffer = none ∧
    (s.finishOffers.maySend = true → s.finishOffers.oldestWaiting = none) ∧
    ∀ (p : Pos) (it : Item), (s.pos p).state ≠ .absent → s.finishOffers.itemDiffers p it = true →
      ∃ f, TxEntry.item it f ∈ (s.finishOffers.pos p).txq) ∧
  (∀ (s : State) (p : Pos) (it : Item), (s.pos p).state ≠ .absent →
    (TxEntry.item it false ∈ (s.finishOffers.pos p).txq → s.finishOffers.itemDiffers p it = true) ∧
    ((∀ x, ((s.pos p).txq.filter fun e => e.isItem x).length ≤ 1) →
      ((s.finishOffers.pos p).txq.filter fun e => e.isItem it).length ≤ 1)) ∧
  (∀ s : State, s.refresh = { s with positions := s.refresh.positions } ∧
    ∀ p, s.refresh.pos p =
      if (s.pos p).state = .absent then s.pos p else { s.pos p with txq := s.txqInStep p }) ∧
  (∀ s : State, s.ordersOk → s.queueOk → s.holdersOk → ∀ p, (s.finishAll.pos p).keys = [] ∨
    ∃ k rest, (s.finishAll.pos p).keys = k :: rest ∧ s.finishAll.waitsAt p k) ∧
  (∀ s : State, (∀ p, (s.pos p).keys = [] ∨ ∃ k rest, (s.pos p).keys = k :: rest ∧ s.waitsAt p k) →
    s.finishAll = s.finishOffers) ∧
  (∀ (s : State) (p : Pos) (k : KeyMsg), (s.pos p).keys = [k] → ¬ s.waitsAt p k →
    (s.pos p).state ≠ .faulted → (s.pos p).state ≠ .absent →
    (∀ q, q ≠ p → (s.pos q).keys = []) →
    exec (keyCommand k.kind p k.args) (s.updPos p fun q => { q with keys := [] }) = .next s.finishAll) ∧
  ∀ (s : State) (p : Pos) (k : KeyMsg) (rest : List KeyMsg), s.ordersOk → s.queueOk → s.holdersOk →
    (s.pos p).keys = k :: rest → ¬ s.waitsAt p k →
    (∀ q < p, (s.pos q).keys = [] ∨ ∃ k' rest', (s.pos q).keys = k' :: rest' ∧ s.waitsAt q k') →
    let v := (s.updPos p fun q => { q with keys := [] }).evalKey p k
    ((s.pos p).state ≠ .faulted → (s.pos p).state ≠ .absent →
      exec (keyCommand k.kind p k.args) (s.updPos p fun q => { q with keys := [] }) = .next v.finishOffers) ∧
    (∀ q, (v.pos q).keys = if q = p then [] else (s.pos q).keys) ∧
    s.finishAll = (v.updPos p fun q => { q with keys := rest }).finishAll

/-- What offers, sending and pictures leave alone: session, tables, queue list, holding places, night state, the order list but
for its entries' states, every record but for the offer mark and OFFER timer of a queued one, every loop but for an IDLE one
that becomes ALERTING, and every setting of a position; at a position that receives no offer the alert list, the tone repeat
deadline and the tones of the transmit queue, and with no offer the rotation pointer and every record (R51, R52, R127, R156). -/
def Obligations.OffersAndSendingLeaveTheRest : Prop :=
  ∀ s t : State, t = s.finishOffers →
    s.sameSession t ∧ t.night = s.night ∧ t.nightDelay = s.nightDelay ∧ t.queue = s.queue ∧ t.orbits = s.orbits ∧
    t.camp = s.camp ∧
    (∀ i, t.slot i = s.slot i ∨ ∃ r p l, s.slot i = .live r ∧ r.loc = .queued ∧ r.mark = none ∧ r.claim = none ∧
      t.slot i = .live { r with
        mark := some (p, l), held := none, timer := some ⟨.offer, s.tick + s.timing.offer, false⟩ }) ∧
    (∀ p, (s.pos p).sameSettings (t.pos p) ∧ (t.pos p).note = (s.pos p).note ∧
      ∀ l, t.loop p l = s.loop p l ∨ (s.loop p l = .idle ∧ ∃ i, t.loop p l = .alerting i)) ∧
    t.orders.map (fun e => (e.slot, e.ref, e.order, e.mark, e.tries)) =
      s.orders.map (fun e => (e.slot, e.ref, e.order, e.mark, e.tries)) ∧
    s.window <+: t.window ∧ s.xout <+: t.xout ∧
    (∀ p, (t.pos p).loops = (s.pos p).loops →
      t.view p = s.view p ∧ (t.pos p).txq.filter TxEntry.isTone = (s.pos p).txq.filter TxEntry.isTone) ∧
    (s.nextOffer = none → t.pointer = s.pointer ∧ t.slots = s.slots)

/-- ORDER_SEND: with the link UP, not paused and room in the window, the oldest WAITING entry by list place goes out: it becomes
SENT with a response deadline from now and joins the tail of the window, and its ORDER message follows the messages sent
before it; otherwise nothing is sent (R127, R32). The sending at the end of an event sends this entry and goes on from the state
it leaves, until nothing may be sent; then the pictures follow. -/
def Obligations.OrderSendSendsTheOldestWaiting : Prop :=
  (∀ (s : State) (a b : List Entry) (e : Entry), s.ordersOk → s.link = .up → s.paused = false → s.window.length < 8 →
    s.orders = a ++ e :: b → e.state = .waiting → (∀ x ∈ a, x.state ≠ .waiting) →
    exec .orderSend s = .next { s with
      orders := a ++ { e with state := .sent (s.tick + s.timing.orderTimeout) false } :: b
      window := s.window ++ [e.slot]
      xout := s.xout ++ [.order e.order e.ref] } ∧
    s.finishOrders = State.finishOrders { s with
      orders := a ++ { e with state := .sent (s.tick + s.timing.orderTimeout) false } :: b
      window := s.window ++ [e.slot]
      xout := s.xout ++ [.order e.order e.ref] }) ∧
  ∀ s : State, s.link ≠ .up ∨ s.paused = true ∨ 8 ≤ s.window.length ∨ (∀ x ∈ s.orders, x.state ≠ .waiting) →
    exec .orderSend s = .next s ∧ s.finishOrders = s.refresh

/-- POSITION_FRAME_SEND: the head of the transmit queue is taken off; an item goes out with the wanted value of this moment,
which becomes its sent value, and a tone goes out as it is (R156). Nothing else of the part changes. An unequipped position sends
nothing (R152). -/
def Obligations.PositionFrameSendSendsTheHead : Prop :=
  (∀ (s : State) (p : Pos), (s.pos p).state = .absent → exec (.positionFrameSend p) s = .next s) ∧
  ∀ (s : State) (p : Pos) (rest : List TxEntry), (s.pos p).state ≠ .absent →
    ((s.pos p).txq = [] → exec (.positionFrameSend p) s = .next s) ∧
    (∀ x, (s.pos p).txq = .tone x :: rest →
      exec (.positionFrameSend p) s = .next (s.updPos p fun q => { q with
        txq := rest, pout := q.pout ++ [.tone x] })) ∧
    (∀ k f, (s.pos p).txq = .item (.lamp k) f :: rest →
      exec (.positionFrameSend p) s = .next (s.updPos p fun q => { q with
        txq := rest, pout := q.pout ++ [.lamp k (s.wantedLamp p k)]
        sent := { q.sent with lamps := q.sent.lamps.set k (s.wantedLamp p k) } })) ∧
    ∀ j f, (s.pos p).txq = .item (.line j) f :: rest →
      exec (.positionFrameSend p) s = .next (s.updPos p fun q => { q with
        txq := rest, pout := q.pout ++ [.display j (s.wantedLine p j)]
        sent := { q.sent with lines := q.sent.lines.set j (s.wantedLine p j) } })

/-! ### Rank and offers (chapters 2 and 3) -/

/-- The rank of a record is class base, 16 times the priority class, 40 for a RECALL, and aging weight times aging steps,
and a sum above 255 is 255 (R41). -/
def Obligations.RankIsTheSumOfFourTerms : Prop :=
  ∀ (s : State) (r : Record),
    s.rank r =
      (let sum := (s.tenant r.tenant).classBase + 16 * r.prio.val + (if r.kind = .new then 0 else 40) +
          (s.tenant r.tenant).agingWeight * r.aging.val
       if sum > 255 then 255 else sum) ∧
    ((s.tenant r.tenant).classBase ≤ 63 → (s.tenant r.tenant).agingWeight ≤ 8 →
      (s.tenant r.tenant).classBase + 16 * r.prio.val + (if r.kind = .new then 0 else 40) +
          (s.tenant r.tenant).agingWeight * r.aging.val ≤ 271)

/-- Among calls in queue order, the one of highest rank is chosen, and the earlier one between equal ranks; some call is
chosen whenever there is one (R42). -/
def Obligations.BestCallIsHighestRankThenEarliest : Prop :=
  ∀ (s : State) (is : List Slot),
    (is ≠ [] → (s.bestOf is).isSome = true) ∧
    ∀ i, s.bestOf is = some i → ∃ a b, is = a ++ i :: b ∧ (∀ j ∈ a, s.rankOf j < s.rankOf i) ∧
      ∀ j ∈ b, s.rankOf j ≤ s.rankOf i

/-- The next offer goes to the first position from the rotation pointer on that has one, on its lowest IDLE loop, and offers a
call it may be offered, of highest rank and the earliest in the queue list between equal ranks (R42, R50); making it marks the
record, arms OFFER from now, makes the loop ALERTING and moves the pointer past the position, with an OFFER entry and RING
where the masks have the kind (R162, R160); a position with a loop in ALERTING, CONNECTING, TALK or EXTEND is passed over (R49
to R52). The end of an event makes this offer and ends from the state it leaves, and with no next offer it goes on to sending
(R50, R51). There is no next offer only if no staffed position with an IDLE loop and no such loop has a call it may be offered
(R47, R49, R50). -/
def Obligations.OfferGoesToTheFirstPositionInRotation : Prop :=
  (∀ (s : State) (p : Pos) (l : LoopNo) (i : Slot), s.nextOffer = some (p, l, i) →
    (∀ m j, s.loop p m ≠ .alerting j ∧ s.loop p m ≠ .connecting j ∧ s.loop p m ≠ .talk j ∧ s.loop p m ≠ .extend j) ∧
    (∀ q : Pos, (q - s.pointer).val < (p - s.pointer).val → s.offerAt q = none) ∧
    (s.loop p l = .idle ∧ ∀ m < l, s.loop p m ≠ .idle) ∧
    i ∈ s.queue ∧ (∀ j ∈ s.queue, s.offerable p j = true → s.rankOf j ≤ s.rankOf i) ∧
    (∃ a b, s.queue = a ++ i :: b ∧ ∀ j ∈ a, s.offerable p j = true → s.rankOf j < s.rankOf i) ∧
    s.bestOf (s.queue.filter fun j => s.offerable p j) = some i ∧
    ∃ r, s.slot i = .live r ∧ r.loc = .queued ∧ r.mark = none ∧ r.claim = none ∧ (∀ e ∈ s.orders, e.slot ≠ i) ∧
      (s.pos p).tenantMask.getLsbD r.tenant.val = true ∧
      ((s.pos p).state = .opened ∨ ((s.pos p).state = .withdrawn ∧ r.kind ≠ .new ∧ r.owner = some p)) ∧
      (∀ x, r.kind ≠ .new → r.owner = some x → ((s.pos x).state = .opened ∨ (s.pos x).state = .withdrawn) → x = p) ∧
      (s.offer p l i).slots = s.slots.set i (.live { r with
        mark := some (p, l), held := none, timer := some ⟨.offer, s.tick + s.timing.offer, false⟩ }) ∧
      (s.offer p l i).loop p l = .alerting i ∧ s.sameLoops (s.offer p l i) p l ∧ s.sameOthers (s.offer p l i) p ∧
      (s.offer p l i).pointer.val = (p.val + 1) % 4 ∧
      (s.offer p l i).view p = s.viewRaised p .offer l (s.view p) ∧
      ((s.offer p l i).pos p).txq = (s.pos p).txq ++ raisedTones (s.pos p) .offer ∧
      (s.pos p).sameSettings ((s.offer p l i).pos p) ∧ ((s.offer p l i).pos p).note = (s.pos p).note ∧
      s.finishOffers = (s.offer p l i).finishOffers ∧
      s.offer p l i = { s with
        slots := (s.offer p l i).slots, positions := (s.offer p l i).positions, pointer := (s.offer p l i).pointer }) ∧
  (∀ s : State, s.nextOffer = none → s.finishOffers = s.finishOrders) ∧
  ∀ (s : State) (p : Pos) (i : Slot) (r : Record), s.nextOffer = none → (∃ l, s.loop p l = .idle) →
    (∀ m j, s.loop p m ≠ .alerting j ∧ s.loop p m ≠ .connecting j ∧ s.loop p m ≠ .talk j ∧ s.loop p m ≠ .extend j) →
    i ∈ s.queue → s.slot i = .live r → r.loc = .queued → r.mark = none → r.claim = none → (∀ e ∈ s.orders, e.slot ≠ i) →
    (s.pos p).tenantMask.getLsbD r.tenant.val = true →
    (r.kind ≠ .new → ∀ x, r.owner = some x → (s.pos x).state = .opened ∨ (s.pos x).state = .withdrawn → x = p) →
    (s.pos p).state ≠ .opened ∧ ((s.pos p).state = .withdrawn → r.kind = .new ∨ r.owner ≠ some p)

/-! ### Ticks and deadlines (chapter 2) -/

/-- A deadline armed from now with an interval of 1 to 32767 ticks is not expired at any advance before its tick, and is
expired at its tick, across every wrap of the counter (R29, R30). A deadline re-armed from a previous one is that deadline plus
the interval when this lies 1 to one interval ahead, and the next tick otherwise; in both cases it lies ahead of the counter, by
no more than the interval (R34). -/
def Obligations.DeadlinesExpireAtTheirTick : Prop :=
  (∀ (t : Tick) (iv : Interval) (k : Nat), 1 ≤ iv.toNat → iv.toNat ≤ 32767 → k ≤ iv.toNat →
    expired (t + BitVec.ofNat 16 k) (t + iv) = decide (k = iv.toNat)) ∧
  ∀ (t base : Tick) (iv : Interval), 1 ≤ iv.toNat → iv.toNat ≤ 32767 →
    rearmed t base iv =
      (if 1 ≤ (base + iv - t).toNat ∧ (base + iv - t).toNat ≤ iv.toNat then base + iv else t + 1) ∧
    expired t (rearmed t base iv) = false ∧ 1 ≤ (rearmed t base iv - t).toNat ∧
    (rearmed t base iv - t).toNat ≤ iv.toNat

/-- TICK: the counter advances by one, from 65535 to 0, the receivers count the advance, the model marks the head of the send
window if its response deadline is found expired (log 4), and nothing else changes (R25, R136, R144); then, position by position,
the carrier row of the level its pin shows is taken (R155; the order P0 to P3: log 5). With every carrier as it was, the advance is
all. -/
def Obligations.TickAdvancesTheCounter : Prop :=
  ∀ (s : State) (pcar : BitVec 4), s.ordersOk →
    ∃ t t0 t1 t2 t3 : State,
      t.tick.toNat = (if s.tick.toNat = 65535 then 0 else s.tick.toNat + 1) ∧
      t = { s with
        tick := t.tick, xrx := s.xrx.advance
        positions := s.positions.map fun q => { q with rx := q.rx.advance }
        orders := s.orders.map fun e =>
          match e.state with
          | .sent d _ =>
            if s.window.head? = some e.slot ∧ (s.tick + 1 - d).toNat < 32768 then { e with state := .sent d true } else e
          | _ => e } ∧
      exec (carrierCommand pcar 0) t = .next t0 ∧ exec (carrierCommand pcar 1) t0 = .next t1 ∧
      exec (carrierCommand pcar 2) t1 = .next t2 ∧ exec (carrierCommand pcar 3) t2 = .next t3 ∧
      exec (.tick pcar) s = .next t3 ∧ (s.carriersAgree pcar → t3 = t)

/-- An order unanswered at the head of the send window when an advance finds its response deadline expired fails the link: the
order list and the window are emptied, every slot is FREE, every holding place empty, every loop IDLE, and each staffed
position whose latch mask has the kind shows EXCHANGE_DOWN; tables, tick, pointer, masks, carriers, the sent pictures and the
messages sent stay, and so do the night state and its delay where no Open or Close key waits (R136, R137; TICK finds,
ORDER_TIMEOUT acts: log 4). The waiting keys are evaluated at their IDLE loops (R70, R74; before EXCHANGE_DOWN is raised: log
34). At a position where none or only loop keys wait, each of these gives the error tone and changes nothing, so that its state
and note stay, the loop entries leave the alert list, EXCHANGE_DOWN joins its tail if it does not stand there, and the tone and
the tone repeat deadline follow (R162, R163, R160). -/
def Obligations.UnansweredHeadFailsTheLink : Prop :=
  ∀ (s : State) (pcar : BitVec 4) (e : Entry) (d : Tick) (f : Bool), s.carriersAgree pcar → s.answering e →
    e.state = .sent d f → (s.tick + 1 - d).toNat < 32768 →
    ∃ t u, exec (.tick pcar) s = .next t ∧ exec .orderTimeout t = .next u ∧
      u.link = .failed ∧ u.orders = [] ∧ u.window = [] ∧ u.paused = false ∧ (∀ i, u.slot i = .free) ∧ u.queue = [] ∧
      (∀ o, u.orbit o = .empty) ∧ u.camp = [] ∧ (∀ p l, u.loop p l = .idle) ∧
      u.tenants = s.tenants ∧ u.timing = s.timing ∧ u.tick = s.tick + 1 ∧ u.pointer = s.pointer ∧ u.xout = s.xout ∧
      u.pending = s.pending ∧ u.poseq = s.poseq ∧ u.xrate = s.xrate ∧ u.xrx = s.xrx.advance ∧ u.xline = s.xline ∧
      ((∀ p, ∀ k ∈ (s.pos p).keys, k.kind ≠ .opening ∧ k.kind ≠ .closing) →
        u.night = s.night ∧ u.nightDelay = s.nightDelay) ∧
      (∀ p, (u.pos p).keys = [] ∧ (s.pos p).sameSettings { u.pos p with
        state := (s.pos p).state, keys := (s.pos p).keys, rx := (s.pos p).rx } ∧ (u.pos p).rx = (s.pos p).rx.advance) ∧
      ∀ p, (∀ k ∈ (s.pos p).keys, KeyKind.isLoopKey k.kind = true) →
        (u.pos p).state = (s.pos p).state ∧ (u.pos p).note = (s.pos p).note ∧
        ((s.pos p).state = .opened ∨ (s.pos p).state = .withdrawn → (s.pos p).latchMask.getLsbD 10 = true →
          ∃ a ∈ (u.pos p).alerts, a.kind = .exchangeDown) ∧
        (let kept := s.viewKept p (fun a => a.loop.isNone) (s.view p)
        let old := (s.pos p).txq.filter TxEntry.isTone
        let tones := old ++ List.replicate (min (s.pos p).keys.length (4 - old.length)) (.tone .error)
        let shows := ((s.pos p).state = .opened ∨ (s.pos p).state = .withdrawn) ∧ (s.pos p).latchMask.getLsbD 10 = true ∧
          ∀ a ∈ kept.alerts, a.kind ≠ .exchangeDown
        (shows → u.view p = ⟨kept.alerts ++ [⟨.exchangeDown, none⟩], u.repeatRaised p .exchangeDown kept.repeats⟩ ∧
          (u.pos p).txq.filter TxEntry.isTone = tones ++ raisedTones { s.pos p with txq := tones } .exchangeDown) ∧
        (¬ shows → u.view p = kept ∧ (u.pos p).txq.filter TxEntry.isTone = tones))

/-! ### The timers of call records (chapters 2 to 6) -/

/-- An expiry of a record that has an order in flight is held: the timer becomes spent and keeps its purpose and deadline, the
held expiry field takes the purpose, and no other state changes; with no entry in the order list it is delivered to its holder
at once, and the event is finished (R35). A timer that is not armed for the purpose, spent or not yet expired gives no expiry
at all (log 3). A held expiry is settled after the response to the record's order (R36): dropped with its spent timer if the
record has moved, kept while an order is in flight again, and otherwise delivered with the spent deadline as its base, the
loop, orbit, list or queue place being still there: RETRIEVE for a camped call left by BUSY, the aging step with its overflow
test after a refused DIVERT or a refused claim of a QUEUED call (R22, R37), RECALLING or the queue after a refused retrieval or
RELEASE, and RECALL(PARK) after a refused claim of a parked call. -/
def Obligations.ExpiryIsHeldOrDelivered : Prop :=
  (∀ (s : State) (i : Slot) (r : Record) (pu : Purpose) (d : Tick), s.dueAt i r pu d → (∃ e ∈ s.orders, e.slot = i) →
    exec (expiryCommand pu i) s = .next { s with
      slots := s.slots.set i (.live { r with timer := some ⟨pu, d, true⟩, held := some pu }) }) ∧
  (∀ (s : State) (i : Slot) (r : Record) (pu : Purpose) (d : Tick), s.dueAt i r pu d → s.settled i r →
    exec (expiryCommand pu i) s = .next
      (match pu with
      | .aging | .noAnswer | .campTimeout => (s.deliver i pu d).finishOrders
      | .offer | .parkRecall => (s.deliver i pu d).finishOffers
      | .holdRecall => (s.deliver i pu d).refresh
      | .escalate => (s.deliver i pu d).finishAll)) ∧
  (∀ (s : State) (i : Slot) (pu : Purpose),
    (∀ r t, s.slot i = .live r → r.timer = some t →
      t.purpose ≠ pu ∨ t.spent = true ∨ 32768 ≤ (s.tick - t.deadline).toNat) →
    exec (expiryCommand pu i) s = .next s) ∧
  (∀ (s : State) (i : Slot) (r : Record) (pu : Purpose) (tm : Timer), s.slot i = .live r → r.held = some pu →
    r.timer = some tm →
    (s.inPlace r pu = false → s.settleHeld i = { s with
      slots := s.slots.set i (.live { r with held := none, timer := if tm.spent then none else some tm }) }) ∧
    (s.inPlace r pu = true → (∃ e ∈ s.orders, e.slot = i) → s.settleHeld i = s) ∧
    (s.inPlace r pu = true → (∀ e ∈ s.orders, e.slot ≠ i) →
      s.settleHeld i = State.deliver { s with slots := s.slots.set i (.live { r with held := none }) } i pu tm.deadline)) ∧
  ∀ (s : State) (e : Entry) (r : Record) (pu : Purpose) (dl : Tick) (d : Byte), s.answering e → s.slot e.slot = .live r →
    r.mark = none → r.held = some pu → r.timer = some ⟨pu, dl, true⟩ →
    let t := s.withoutEntry e.slot
    let refused := Instr.responseRefused (e.reply 2 d)
    let tones := fun (p : Pos) =>
      let first := raisedTones (s.pos p) .orderFailed
      first ++ raisedTones { s.pos p with txq := (s.pos p).txq ++ first } .holdRecall
    (∀ ext dial, r.claim = none → r.loc = .camped ext → e.order = .ringExt dial → pu = .campTimeout →
      exec (.responseDone (e.reply 1 2)) s = .next (State.finishAll { t with
        slots := s.slots.set e.slot (.live { r with held := none })
        orders := t.orders ++ [Entry.fresh e.slot r .retrieve .none] })) ∧
    (∀ dial (steps : Fin 16), r.claim = none → r.loc = .queued → e.order = .divert dial → pu = .aging → d ≠ 2 →
      steps.val = min 15 (r.aging.val + 1) →
      let spent := r.overflowSpent || e.mark == .overflow
      exec refused s = .next (State.finishAll { t with
        slots := s.slots.set e.slot (.live { r with
          overflowSpent := spent, aging := steps, held := none
          timer :=
            if steps.val < 15 then some ⟨.aging, rearmed s.tick dl (s.tenant r.tenant).agingInterval, false⟩ else none })
        orders := t.orders ++
          (match (s.tenant r.tenant).overflowDest with
          | some ext =>
            if (s.tenant r.tenant).overflowStep ≠ 0 ∧ steps.val = (s.tenant r.tenant).overflowStep ∧ spent = false
            then [Entry.fresh e.slot r (.divert ext) .overflow] else []
          | none => []) })) ∧
    (∀ p l j x y, r.claim = none → r.loc = .loop p l → s.loop p l = .held j → e.order = .connect x y → pu = .holdRecall →
      ∃ u : State, exec (.responseDone (e.reply 1 d)) s = .next u.finishAll ∧
        s.workAt u p l (.talk e.slot) (s.viewWithoutKind p l .holdRecall (s.view p)) (s.pos p).note [] ∧
        u = { t with
          slots := s.slots.set e.slot (.live { r with timer := none, held := none }), positions := u.positions }) ∧
    (∀ p l j, r.claim = none → r.loc = .loop p l → s.loop p l = .held j → pu = .holdRecall → d ≠ 2 →
      (∃ x y, e.order = .connect x y) ∨ e.order = .release →
      ∃ u : State, exec refused s = .next u.finishAll ∧
        s.workAt u p l (.recalling e.slot)
          (s.viewRaised p .holdRecall l (s.viewRaised p .orderFailed l (s.view p)))
          (s.pos p).note (tones p) ∧
        u = { t with
          slots := s.slots.set e.slot (.live { r with
            held := none, timer := some ⟨.escalate, rearmed s.tick dl s.timing.escalation, false⟩ })
          positions := u.positions }) ∧
    (∀ p l j, r.claim = none → r.loc = .loop p l → s.loop p l = .recalling j → pu = .escalate → d ≠ 2 →
      (∃ x y, e.order = .connect x y) ∨ e.order = .release →
      ∃ v u : State, exec refused s = .next u.finishAll ∧
        s.workAt v p l .idle (s.viewWithout p l (s.viewRaised p .orderFailed l (s.view p))) (s.pos p).note
          (raisedTones (s.pos p) .orderFailed) ∧
        v.thresholdShown u r.tenant ∧
        u = { t with
          slots := s.slots.set e.slot (.live (s.recalled r .hold (some p))), queue := s.queue ++ [e.slot]
          orders := t.orders ++ s.nightEntries e.slot r, positions := u.positions }) ∧
    (∀ p l x y (steps : Fin 16), r.claim = some ⟨p, l, true⟩ → r.loc = .queued → e.order = .connect x y → pu = .aging →
      d ≠ 2 → steps.val = min 15 (r.aging.val + 1) →
      ∃ u : State, exec refused s = .next u.finishAll ∧
        s.workAt u p l .idle (s.viewRaised p .orderFailed l (s.viewWithout p l (s.view p))) (s.pos p).note
          (raisedTones (s.pos p) .orderFailed) ∧
        u = { t with
          slots := s.slots.set e.slot (.live { r with
            claim := none, aging := steps, held := none
            timer :=
              if steps.val < 15 then some ⟨.aging, rearmed s.tick dl (s.tenant r.tenant).agingInterval, false⟩ else none })
          orders := t.orders ++
            (match (s.tenant r.tenant).overflowDest with
            | some ext =>
              if (s.tenant r.tenant).overflowStep ≠ 0 ∧ steps.val = (s.tenant r.tenant).overflowStep ∧
                r.overflowSpent = false
              then [Entry.fresh e.slot r (.divert ext) .overflow] else []
            | none => [])
          positions := u.positions }) ∧
    ∀ p l x y o, r.claim = some ⟨p, l, true⟩ → r.loc = .parked o → e.order = .connect x y → pu = .parkRecall → d ≠ 2 →
      ∃ v u : State, exec refused s = .next u.finishAll ∧
        s.workAt v p l .idle (s.viewRaised p .orderFailed l (s.viewWithout p l (s.view p))) (s.pos p).note
          (raisedTones (s.pos p) .orderFailed) ∧
        v.thresholdShown u r.tenant ∧
        (∀ z, u.orbit z = if s.orbit z = .occupied e.slot ∨ s.orbit z = .reserved e.slot then .empty else s.orbit z) ∧
        u = { t with
          slots := s.slots.set e.slot (.live (s.recalled r .park r.owner)), queue := s.queue ++ [e.slot]
          orders := t.orders ++ s.nightEntries e.slot r, orbits := u.orbits, positions := u.positions }

/-- AGING_EXPIRY of a record with no order in flight: the aging steps rise by one and stay at 15; AGING is re-armed from the
expired deadline below 15 steps and is absent at 15; and at the tenant's overflow step, with an overflow destination and the
overflow not spent, an overflow DIVERT is issued (R39, R40, R59). Then orders are sent. -/
def Obligations.AgingExpiryRaisesTheStep : Prop :=
  ∀ (s : State) (i : Slot) (r : Record) (d : Tick) (steps : Fin 16), s.settled i r → s.dueAt i r .aging d →
    steps.val = min 15 (r.aging.val + 1) →
    exec (.agingExpiry i) s = .next (State.finishOrders { s with
      slots := s.slots.set i (.live { r with
        aging := steps, held := none
        timer := if steps.val < 15 then some ⟨.aging, rearmed s.tick d (s.tenant r.tenant).agingInterval, false⟩ else none })
      orders := s.orders ++
        (match (s.tenant r.tenant).overflowDest with
        | some ext =>
          if (s.tenant r.tenant).overflowStep ≠ 0 ∧ steps.val = (s.tenant r.tenant).overflowStep ∧
              r.overflowSpent = false then [Entry.fresh i r (.divert ext) .overflow] else []
        | none => []) })

/-- OFFER_EXPIRY: the offer mark goes, AGING is armed from now with the steps kept, the loop becomes IDLE and its entry leaves the
alert list, and an OPEN position becomes WITHDRAWN with an AUTO_WITHDRAWN entry if its latch mask has the kind, which sounds by
the tone mask (R55, R160). Then offers are made. -/
def Obligations.OfferExpiryWithdrawsThePosition : Prop :=
  ∀ (s : State) (i : Slot) (r : Record) (d : Tick) (p : Pos) (l : LoopNo), s.settled i r → s.dueAt i r .offer d →
    r.mark = some (p, l) →
    ∃ u : State, exec (.offerExpiry i) s = .next u.finishOffers ∧
      u = { s with
        slots := s.slots.set i (.live { r with mark := none, timer := s.agingTimer r, held := none })
        positions := u.positions } ∧
      u.loop p l = .idle ∧ s.sameLoops u p l ∧ s.sameOthers u p ∧
      (u.pos p).state = (if (s.pos p).state = .opened then .withdrawn else (s.pos p).state) ∧
      (let kept := s.viewWithout p l (s.view p)
      let shows := (s.pos p).state = .opened ∧ (s.pos p).latchMask.getLsbD AlertKind.autoWithdrawn.bit = true ∧
        ∀ a ∈ kept.alerts, a.kind ≠ .autoWithdrawn
      (shows → u.view p = ⟨kept.alerts ++ [⟨.autoWithdrawn, none⟩], s.repeatRaised p .autoWithdrawn kept.repeats⟩ ∧
        (u.pos p).txq = (s.pos p).txq ++ raisedTones (s.pos p) .autoWithdrawn) ∧
      (¬ shows → u.view p = kept ∧ (u.pos p).txq = (s.pos p).txq)) ∧
      (s.pos p).sameSettings { u.pos p with state := (s.pos p).state } ∧ (u.pos p).note = (s.pos p).note

/-- HOLD_RECALL_EXPIRY: the HELD loop becomes RECALLING with a HOLD_RECALL alert, and ESCALATE is armed from the expired deadline
with the escalation interval (R83). -/
def Obligations.HoldRecallExpiryMakesTheLoopRecalling : Prop :=
  ∀ (s : State) (i : Slot) (r : Record) (d : Tick) (p : Pos) (l : LoopNo), s.settled i r → s.dueAt i r .holdRecall d →
    r.loc = .loop p l →
    ∃ u : State, exec (.holdRecallExpiry i) s = .next u.refresh ∧
      u = { s with
        slots := s.slots.set i (.live { r with
          timer := some ⟨.escalate, rearmed s.tick d s.timing.escalation, false⟩, held := none })
        positions := u.positions } ∧
      s.workAt u p l (.recalling i) (s.viewRaised p .holdRecall l (s.view p)) (s.pos p).note
        (raisedTones (s.pos p) .holdRecall)

/-- ESCALATE_EXPIRY sends a call from its loop, and PARK_RECALL_EXPIRY one from its orbit, to the tail of the queue as a recall:
RECALL(HOLD) owned by the position of the loop, RECALL(PARK) with the owner kept; the steps start at 0 with AGING from now, the
loop is IDLE or the orbit EMPTY, the tenant's threshold is looked at, and in NIGHT the night DIVERT is issued (R84, R114, R44,
R46, R64). Waiting keys after an escalation, then offers. -/
def Obligations.EscalationAndParkRecallJoinTheQueue : Prop :=
  (∀ (s : State) (i : Slot) (r : Record) (d : Tick) (p : Pos) (l : LoopNo), s.settled i r → s.dueAt i r .escalate d →
    r.loc = .loop p l →
    ∃ v u : State, exec (.escalateExpiry i) s = .next u.finishAll ∧
      s.workAt v p l .idle (s.viewWithout p l (s.view p)) (s.pos p).note [] ∧ v.thresholdShown u r.tenant ∧
      u = { s with
        slots := s.slots.set i (.live (s.recalled r .hold (some p)))
        queue := s.queue ++ [i], orders := s.orders ++ s.nightEntries i r, positions := u.positions }) ∧
  ∀ (s : State) (i : Slot) (r : Record) (d : Tick) (o : OrbitNo), s.settled i r → s.dueAt i r .parkRecall d →
    r.loc = .parked o →
    ∃ u : State, exec (.parkRecallExpiry i) s = .next u.finishOffers ∧ s.thresholdShown u r.tenant ∧
      u = { s with
        slots := s.slots.set i (.live (s.recalled r .park r.owner))
        queue := s.queue ++ [i], orders := s.orders ++ s.nightEntries i r, orbits := u.orbits
        positions := u.positions } ∧
      ∀ x, u.orbit x = if s.orbit x = .occupied i ∨ s.orbit x = .reserved i then .empty else s.orbit x

/-- NO_ANSWER_EXPIRY and CAMP_TIMEOUT_EXPIRY issue RETRIEVE for the call, and the timer becomes spent and keeps its deadline
(R121, R119). Then orders are sent. -/
def Obligations.UnansweredCallsAreRetrieved : Prop :=
  ∀ (s : State) (i : Slot) (r : Record) (d : Tick) (pu : Purpose), pu = .noAnswer ∨ pu = .campTimeout → s.settled i r →
    s.dueAt i r pu d →
    exec (expiryCommand pu i) s = .next (State.finishOrders { s with
      slots := s.slots.set i (.live { r with timer := some ⟨pu, d, true⟩ })
      orders := s.orders ++ [Entry.fresh i r .retrieve .none] })

/-- NIGHT_DELAY_EXPIRY: the night state is NIGHT, the deadline is gone, and from the head of the queue to its tail every record
with no offer mark, no claim and no order in flight whose tenant has a night destination receives a night DIVERT (R63). An
unarmed or unexpired night delay gives nothing (log 3). -/
def Obligations.NightEntryDivertsTheQueue : Prop :=
  (∀ (s : State) (d : Tick), s.queue.Nodup → s.nightDelay = some d → (s.tick - d).toNat < 32768 →
    exec .nightDelayExpiry s = .next (State.finishOrders { s with
      night := .night, nightDelay := none
      orders := s.orders ++ s.queue.filterMap fun i =>
        match s.slot i with
        | .live r =>
          if r.mark = none ∧ r.claim = none ∧ ¬ (∃ e ∈ s.orders, e.slot = i) then
            (s.tenant r.tenant).nightDest.map fun ext => Entry.fresh i r (.divert ext) .night
          else none
        | _ => none })) ∧
  ∀ s : State, (∀ d, s.nightDelay = some d → 32768 ≤ (s.tick - d).toNat) → exec .nightDelayExpiry s = .next s

/-- TONE_REPEAT_EXPIRY: with an entry sounding, RING if an OFFER entry is among the sounding ones and BEEP otherwise joins the
transmit queue unless four tones stand there, and the deadline is armed 30 ticks from now; with none sounding it is disarmed
(R160, R156). A deadline not armed or not expired gives nothing (log 3). -/
def Obligations.ToneRepeatSoundsAgain : Prop :=
  ∀ (s : State) (p : Pos),
    (∀ d, (s.pos p).toneRepeat = some d → (s.tick - d).toNat < 32768 →
      exec (.toneRepeatExpiry p) s = .next (s.updPos p fun q =>
        if ∃ a ∈ q.alerts, q.toneMask.getLsbD a.kind.bit = true then
          { q with
            toneRepeat := some (s.tick + 30)
            txq := q.txq ++ (if (q.txq.filter TxEntry.isTone).length < 4 then
              [.tone (if ∃ a ∈ q.alerts, q.toneMask.getLsbD a.kind.bit = true ∧ a.kind = .offer then .ring else .beep)]
              else []) }
        else { q with toneRepeat := none })) ∧
    ((∀ d, (s.pos p).toneRepeat = some d → 32768 ≤ (s.tick - d).toNat) → exec (.toneRepeatExpiry p) s = .next s)

/-! ### The exchange link: messages that are not taken, and the session (chapter 8) -/

/-- While the link is not UP, a decoded message of the eleven rows other than LINK_UP, the table writes and STATUS_QUERY is
discarded with a PROTOCOL_ERROR notice that carries its type and the call reference it named, or 0 (R140, R145). A message whose
body has not the length of its type, a TENANT_SET with a tenant above 15, a POSITION_SET with a position above 3, and an EXT_FREE
or TENANT_SET with an extension field that R145 calls malformed, are discarded in every link state with a notice of reference 0
(the reference: the model's choice, log 11). -/
def Obligations.MessagesNotTakenBringANotice : Prop :=
  (∀ (s : State) (x k hi lo t c o n d : Byte) (ds : List Byte) (ext : Digits) (pad : List Byte), s.link ≠ .up →
    exec (.restart [x]) s = .next (s.noticed 0x02 0) ∧
    (ds.length = n.toNat → exec (.arrive (hi :: lo :: t :: c :: o :: n :: ds)) s = .next (s.noticed 0x03 (hi ++ lo))) ∧
    exec (.cleared [hi, lo]) s = .next (s.noticed 0x04 (hi ++ lo)) ∧
    exec (.destStateAnswered [hi, lo, x]) s = .next (s.noticed 0x05 (hi ++ lo)) ∧
    exec (.destStateDestCleared [hi, lo, x]) s = .next (s.noticed 0x05 (hi ++ lo)) ∧
    (ext ≠ [] → extFieldOk ext pad → exec (.extFree (extField ext pad)) s = .next (s.noticed 0x06 0)) ∧
    exec (.responseDone [k, hi, lo, o, d]) s = .next (s.noticed 0x07 (hi ++ lo)) ∧
    exec (.responseRefused [k, hi, lo, o, d]) s = .next (s.noticed 0x07 (hi ++ lo)) ∧
    exec (.responseRetry [k, hi, lo, o, d]) s = .next (s.noticed 0x07 (hi ++ lo)) ∧
    exec (.pause [x]) s = .next (s.noticed 0x08 0) ∧ exec (.resume [x]) s = .next (s.noticed 0x09 0)) ∧
  (∀ (s : State) (body : List Byte),
    (body.length ≠ 1 →
      exec (.linkUp body) s = .next (s.noticed 0x01 0) ∧ exec (.restart body) s = .next (s.noticed 0x02 0) ∧
      exec (.pause body) s = .next (s.noticed 0x08 0) ∧ exec (.resume body) s = .next (s.noticed 0x09 0) ∧
      exec (.statusQuery body) s = .next (s.noticed 0x0D 0)) ∧
    (body.length ≠ 2 → exec (.cleared body) s = .next (s.noticed 0x04 0)) ∧
    (body.length ≠ 3 → exec (.destStateAnswered body) s = .next (s.noticed 0x05 0) ∧
      exec (.destStateDestCleared body) s = .next (s.noticed 0x05 0)) ∧
    (body.length ≠ 5 → exec (.responseDone body) s = .next (s.noticed 0x07 0) ∧
      exec (.responseRefused body) s = .next (s.noticed 0x07 0) ∧ exec (.responseRetry body) s = .next (s.noticed 0x07 0)) ∧
    (body.length ≠ 7 → exec (.extFree body) s = .next (s.noticed 0x06 0) ∧
      exec (.positionSet body) s = .next (s.noticed 0x0C 0)) ∧
    (body.length ≠ 18 → exec (.timingSet body) s = .next (s.noticed 0x0B 0)) ∧
    (body.length ≠ 38 → exec (.tenantSet body) s = .next (s.noticed 0x0A 0)) ∧
    (body.length < 6 → exec (.arrive body) s = .next (s.noticed 0x03 0)) ∧
    (∀ n, body[5]? = some n → body.length ≠ 6 + n.toNat → exec (.arrive body) s = .next (s.noticed 0x03 0))) ∧
  (∀ (s : State) (n x : Byte) (six : List Byte), six.length = 6 →
    (n.toNat ≤ 1 ∨ 6 < n.toNat ∨ (∃ b ∈ six.take n.toNat, 9 < b.toNat) →
      exec (.extFree (n :: six)) s = .next (s.noticed 0x06 0)) ∧
    (3 < x.toNat → exec (.positionSet (x :: six)) s = .next (s.noticed 0x0C 0))) ∧
  ∀ (s : State) (t oc nc : Byte) (fields oSix nSix : List Byte), fields.length = 23 → oSix.length = 6 → nSix.length = 6 →
    let malformed := fun (n : Byte) (six : List Byte) => n.toNat = 1 ∨ 6 < n.toNat ∨ ∃ b ∈ six.take n.toNat, 9 < b.toNat
    15 < t.toNat ∨ malformed oc oSix ∨ malformed nc nSix →
    exec (.tenantSet ([t] ++ fields ++ [oc] ++ oSix ++ [nc] ++ nSix)) s = .next (s.noticed 0x0A 0)

/-- A damaged frame of the exchange link is discarded with a FRAME_ERROR notice that carries no type and no reference, and one of a
position link without a report; the receiver then hunts, and nothing else changes (R144). A type that is no inbound type of the
exchange link brings a PROTOCOL_ERROR notice with the type (R145). -/
def Obligations.DamagedAndUnknownFrames : Prop :=
  ∀ (s : State) (p : Pos) (typ : Byte) (body : List Byte),
    (∀ c ∈ [Instr.frameByteTimeout .exchange, .frameError .exchange],
      exec c s = .next { s with xrx := .hunting, xout := s.xout ++ [.notice .frameError 0 0] }) ∧
    (∀ c ∈ [Instr.frameByteTimeout (.position p), .frameError (.position p)],
      exec c s = .next (if (s.pos p).state = .absent then s else s.updPos p fun q => { q with rx := .hunting })) ∧
    exec (.unknownMessageType typ body) s = .next (s.noticed typ 0)

/-- LINK_UP in DOWN or FAILED makes the link UP and changes nothing else; PAUSE and RESUME in UP set and clear the pause flag, and
RESUME sends; STATUS_QUERY sends a STATUS_REPLY with the fields of that moment in every link state (R139, R141, R135, R140,
R150). The body byte of the four is disregarded (R143). -/
def Obligations.SessionPauseAndStatus : Prop :=
  ∀ (s : State) (x : Byte),
    (s.link ≠ .up → exec (.linkUp [x]) s = .next { s with link := .up }) ∧
    (s.link = .up → exec (.pause [x]) s = .next { s with paused := true }) ∧
    (s.link = .up → exec (.resume [x]) s = .next (State.finishOrders { s with paused := false })) ∧
    exec (.statusQuery [x]) s = .next { s with
      xout := s.xout ++ [.statusReply {
        tick := s.tick, link := s.link, paused := s.paused, night := s.night
        positions := [(s.pos 0).state, (s.pos 1).state, (s.pos 2).state, (s.pos 3).state]
        live := ((List.finRange 128).filter fun i => (s.slot i).isLive).length
        retiring := ((List.finRange 128).filter fun i => (s.slot i).isRetiring).length
        queued := s.queue.length, window := s.window.length }] }

/-- RESTART in UP, and LINK_UP in UP, empty the Call Table and everything that refers to it: every slot FREE, the queue,
orbits, camp-on table, order list and window empty, the pause flag clear, every loop IDLE and every loop entry out of the alert
lists, the repeats ending with the last sounding one (R160); everything else stays, and the waiting keys are evaluated (R142,
R137, R70, R163; log 29). -/
def Obligations.RestartEmptiesTheCallTable : Prop :=
  ∀ (s : State) (x : Byte) (c : Instr), s.link = .up → c = .restart [x] ∨ c = .linkUp [x] →
    ∃ u : State, exec c s = .next u.finishAll ∧
      u = { s with
        slots := u.slots, queue := [], orbits := u.orbits, camp := [], orders := [], window := [], paused := false
        positions := u.positions } ∧
      (∀ i, u.slot i = .free) ∧ (∀ o, u.orbit o = .empty) ∧
      ∀ p, (s.pos p).sameSettings (u.pos p) ∧ (∀ l, u.loop p l = .idle) ∧
        u.view p = s.viewKept p (fun a => a.loop.isNone) (s.view p) ∧ (u.pos p).note = (s.pos p).note ∧
        (u.pos p).txq = (s.pos p).txq

/-! ### Admission and call events (chapter 1) -/

/-- ARRIVE in UP is declined by the checks of R12 in their order: INVALID, TENANT, DUPLICATE with a PROTOCOL_ERROR notice, FULL;
nothing but the message is an effect. -/
def Obligations.ArriveIsDeclined : Prop :=
  ∀ (s : State) (hi lo t c o n : Byte) (ds : List Byte), s.link = .up → ds.length = n.toNat →
    let ref := hi ++ lo
    let invalid := ref = 0 ∨ (o ≠ 1 ∧ o ≠ 2) ∨ 16 < ds.length ∨ ∃ d ∈ ds, 9 < d.toNat
    let served := ∃ h : t.toNat < 16, (s.tenant ⟨t.toNat, h⟩).inService = true
    let known := ∃ i, (∃ r, s.slot i = .live r ∧ r.ref = ref) ∨ s.slot i = .retiring ref
    let answer := fun ms => exec (.arrive (hi :: lo :: t :: c :: o :: n :: ds)) s = .next { s with xout := s.xout ++ ms }
    (invalid → answer [.callDeclined ref .invalid]) ∧
    (¬ invalid → ¬ served → answer [.callDeclined ref .tenant]) ∧
    (¬ invalid → served → known → answer [.callDeclined ref .duplicate, .notice .protocolError 0x03 ref]) ∧
    (¬ invalid → served → ¬ known → (∀ i, s.slot i ≠ .free) → answer [.callDeclined ref .full])

/-- ARRIVE in UP with a reference no slot holds, a served tenant and a FREE slot is admitted into the lowest FREE slot: a NEW
record with its priority clamped to 3, AGING from now, at the tail of the queue, with CALL_TAKEN sent, the tenant's threshold
looked at, and in NIGHT the night DIVERT (R12, R13, R5, R46, R64). Then offers. -/
def Obligations.ArriveIsAdmitted : Prop :=
  ∀ (s : State) (ref : CallRef) (t : TenantNo) (c o : Byte) (prio : Fin 4) (ds : Digits) (i : Slot), s.link = .up →
    ref ≠ 0 → o = 1 ∨ o = 2 → ds.length ≤ 16 → prio.val = min 3 c.toNat → (s.tenant t).inService = true →
    (∀ j, (∀ r, s.slot j = .live r → r.ref ≠ ref) ∧ s.slot j ≠ .retiring ref) →
    s.slot i = .free → (∀ j < i, s.slot j ≠ .free) → (∀ e ∈ s.orders, e.slot ≠ i) →
    let r : Record := {
      ref := ref, tenant := t, prio := prio, digits := ds, kind := .new, owner := none, loc := .queued, mark := none,
      claim := none, dest := none, step := 0, aging := 0
      timer := some ⟨.aging, s.tick + (s.tenant t).agingInterval, false⟩, held := none, overflowSpent := false }
    ∃ u : State, exec (.arrive (wordBytes ref ++ [BitVec.ofNat 8 t.val, c, o, BitVec.ofNat 8 ds.length] ++
        ds.map (fun d : Fin 10 => BitVec.ofNat 8 d.val))) s = .next u.finishOffers ∧
      s.thresholdShown u t ∧
      u = { s with
        slots := s.slots.set i (.live r), queue := s.queue ++ [i], orders := s.orders ++ s.nightEntries i r
        xout := s.xout ++ [.callTaken ref i], positions := u.positions }

/-- CLEARED in UP retires the LIVE record of its reference: the call leaves its holder, an entry that is not SENT is withdrawn
and the slot is FREE, and with a SENT entry the slot is RETIRING; every loop that had the call, as its holder, offer mark or
claim, is IDLE with a CALLER_GONE alert and its note (R15, R16, R159; the note whatever the latch mask: log 21). The other calls
of its camp-on list keep their order (R115), and keys it frees are evaluated before offers are made (the model's choice: log
35). A reference of no LIVE record is ignored. -/
def Obligations.ClearedRetiresTheCall : Prop :=
  (∀ (s : State) (i : Slot) (r : Record) (hi lo : Byte), s.link = .up → s.refsOk → s.ordersOk → s.slot i = .live r →
    hi ++ lo = r.ref →
    ∃ u : State, exec (.cleared [hi, lo]) s = .next u.finishAll ∧ s.letGo u i r ∧ s.goneShown u i r ∧
      u = { s with
        slots := s.slots.set i (if i ∈ s.window then .retiring r.ref else .free)
        orders := s.orders.filter (fun e => e.slot != i || e.isSent)
        queue := u.queue, orbits := u.orbits, camp := u.camp, positions := u.positions }) ∧
  ∀ (s : State) (hi lo : Byte), s.link = .up → (∀ i r, s.slot i = .live r → r.ref ≠ hi ++ lo) →
    exec (.cleared [hi, lo]) s = .next s

/-- DEST_STATE in UP: ANSWERED at extend step 3 gives step 5 with a DEST_ANSWERED alert, and retires an EXTENDED record;
DEST_CLEARED at step 5 issues the return CONNECT and gives step 6; otherwise the message is ignored, and a state byte that is
neither brings a notice (R96, R17, R103, R145; the reference it carries: log 11). -/
def Obligations.DestinationChangesAreTaken : Prop :=
  ∀ (s : State) (hi lo : Byte), s.link = .up → s.refsOk →
    (∀ (i : Slot) (r : Record), s.slot i = .live r → r.ref = hi ++ lo →
      (∀ p l j, r.loc = .loop p l → s.loop p l = .extend j → r.step = 3 →
        ∃ u : State, exec (.destStateAnswered [hi, lo, 1]) s = .next u.refresh ∧
          u = { s with slots := s.slots.set i (.live { r with step := 5 }), positions := u.positions } ∧
          s.workAt u p l (.extend j) (s.viewRaised p .destAnswered l (s.view p)) (s.pos p).note
            (raisedTones (s.pos p) .destAnswered)) ∧
      (∀ ext, s.ordersOk → r.loc = .extended ext → r.loops = [] →
        ∃ u : State, exec (.destStateAnswered [hi, lo, 1]) s = .next u.finishAll ∧ s.letGo u i r ∧
          u = { s with
            slots := s.slots.set i (if i ∈ s.window then .retiring r.ref else .free)
            orders := s.orders.filter (fun e => e.slot != i || e.isSent), orbits := u.orbits }) ∧
      (∀ p l j, s.settled i r → r.loc = .loop p l → s.loop p l = .extend j → r.step = 5 →
        exec (.destStateDestCleared [hi, lo, 2]) s = .next (State.finishOrders { s with
          slots := s.slots.set i (.live { r with step := 6 })
          orders := s.orders ++ [Entry.fresh i r (.connect p l) .none] }))) ∧
    ((∀ i r, s.slot i = .live r → r.ref = hi ++ lo →
        (∀ ext, r.loc ≠ .extended ext) ∧ (∀ p l j, r.loc = .loop p l → s.loop p l = .extend j → r.step ≠ 3)) →
      exec (.destStateAnswered [hi, lo, 1]) s = .next s) ∧
    ((∀ i r, s.slot i = .live r → r.ref = hi ++ lo →
        ∀ p l j, r.loc = .loop p l → s.loop p l = .extend j → r.step ≠ 5) →
      exec (.destStateDestCleared [hi, lo, 2]) s = .next s) ∧
    ∀ x : Byte, x ≠ 1 → x ≠ 2 → exec (.destStateAnswered [hi, lo, x]) s = .next (s.noticed 0x05 (hi ++ lo))

/-- EXT_FREE is taken only in UP, and before and after brings a PROTOCOL_ERROR notice and nothing else. In UP it serves the first
call on the extension's camp-on list that has no order in flight: RING_EXT is issued for it at the tail of the order list, and the
call keeps its place and its timer; with no such call nothing happens (R117). -/
def Obligations.ExtensionFreeRingsTheFirstCampedCall : Prop :=
  (∀ (s : State) (ext : Digits) (pad : List Byte), s.link ≠ .up → ext ≠ [] → extFieldOk ext pad →
    exec (.extFree (extField ext pad)) s = .next (s.noticed 0x06 0)) ∧
  ∀ (s : State) (ext : Digits) (pad : List Byte), s.link = .up → ext ≠ [] → extFieldOk ext pad →
    (∀ (xs ys : List Slot) (i : Slot) (r : Record), s.campedOn ext = xs ++ i :: ys →
      (∀ j ∈ xs, ∃ e ∈ s.orders, e.slot = j) → s.settled i r →
      exec (.extFree (extField ext pad)) s = .next (State.finishOrders { s with
        orders := s.orders ++ [Entry.fresh i r (.ringExt ext) .none] })) ∧
    ((∀ j ∈ s.campedOn ext, ∃ e ∈ s.orders, e.slot = j) → exec (.extFree (extField ext pad)) s = .next s)

/-! ### Responses (chapter 7, and what the holders do with them) -/

/-- A RESPONSE in UP with an empty window, with an unknown outcome, or whose kind or reference is not that of the head of the
window, is discarded with a PROTOCOL_ERROR notice (R128, R129), whichever row carries it (log 10) and with the reference it names
also for an unknown outcome (log 11). -/
def Obligations.ResponseThatMatchesNothingIsDiscarded : Prop :=
  ∀ (s : State) (k hi lo o d : Byte) (c : Instr), s.link = .up →
    c ∈ [Instr.responseDone [k, hi, lo, o, d], .responseRefused [k, hi, lo, o, d], .responseRetry [k, hi, lo, o, d]] →
    (s.window = [] → exec c s = .next (s.noticed 0x07 (hi ++ lo))) ∧
    (o ≠ 1 → o ≠ 2 → o ≠ 3 → exec c s = .next (s.noticed 0x07 (hi ++ lo))) ∧
    ∀ e, s.answering e → k ≠ e.order.code ∨ hi ++ lo ≠ e.ref → exec c s = .next (s.noticed 0x07 (hi ++ lo))

/-- The matching response of a RETIRING slot, whatever it is, takes the entry out of the list and the window and makes the slot
FREE, and nothing else follows from it (R18). REFUSED with NO_CALL retires a LIVE record, with CALLER_GONE and its note at every
loop that had the call (R131, R16; the note whatever the latch mask: log 21), but for the RELEASE of a LOCKED loop, whose response
brings no alert (R82; log 33). -/
def Obligations.ResponsesForCallsThatAreGone : Prop :=
  ∀ (s : State) (e : Entry), s.answering e →
    (∀ (ref : CallRef) (d : Byte), s.slot e.slot = .retiring ref →
      ∀ c ∈ [Instr.responseDone (e.reply 1 d), .responseRefused (e.reply 2 d), .responseRetry (e.reply 3 d)],
        exec c s = .next (State.finishAll { s.withoutEntry e.slot with slots := s.slots.set e.slot .free })) ∧
    ∀ r, s.slot e.slot = .live r → e.order ≠ .release ∨ (∀ p l j, r.loc = .loop p l → s.loop p l ≠ .locked j) →
      ∃ u : State, exec (.responseRefused (e.reply 2 2)) s = .next u.finishAll ∧ s.letGo u e.slot r ∧ s.goneShown u e.slot r ∧
        u = { s.withoutEntry e.slot with
          slots := s.slots.set e.slot .free
          queue := u.queue, orbits := u.orbits, camp := u.camp, positions := u.positions }

/-- RETRY for a LIVE record: the entry leaves the window and rests with one try more and the retry delay from now, and the next
order may be sent; a RETRY after three tries is taken as REFUSED with any reason but NO_CALL and ANSWERED (R133).
RETRY_DEADLINE_EXPIRY: a RESTING entry whose deadline has expired becomes WAITING in its place and orders are sent (R134); with no
such entry nothing happens (log 3). -/
def Obligations.RetryRestsTheEntryUntilItsDeadline : Prop :=
  (∀ (s : State) (a b : List Entry) (e : Entry) (r : Record) (d : Byte), s.answering e → s.ordersOk →
    s.orders = a ++ e :: b → s.slot e.slot = .live r →
    (∀ tries : Fin 4, tries.val = e.tries.val + 1 →
      exec (.responseRetry (e.reply 3 d)) s = .next (State.finishOrders { s with
        orders := a ++ { e with state := .resting (s.tick + s.timing.retryDelay), tries := tries } :: b
        window := s.window.filter fun j => j != e.slot })) ∧
    (e.tries = 3 → ∀ why : Byte, why ≠ 2 → why ≠ 3 →
      exec (.responseRetry (e.reply 3 d)) s = exec (.responseRefused (e.reply 2 why)) s)) ∧
  (∀ (s : State) (a b : List Entry) (e : Entry) (d : Tick), (s.orders.map Entry.slot).Nodup → s.orders = a ++ e :: b →
    e.state = .resting d → (s.tick - d).toNat < 32768 →
    exec (.retryDeadlineExpiry e.slot) s =
      .next (State.finishOrders { s with orders := a ++ { e with state := .waiting } :: b })) ∧
  ∀ (s : State) (i : Slot),
    (∀ e ∈ s.orders, e.slot = i → ∀ d, e.state = .resting d → 32768 ≤ (s.tick - d).toNat) →
    exec (.retryDeadlineExpiry i) s = .next s

/-- The response to the CONNECT of a granted claim on a QUEUED or PARKED record: DONE moves the record to the claiming loop, in
TALK, owned by the position, with no timer; a refusal removes the claim, arms AGING from now for a QUEUED record with no timer,
and makes the loop IDLE with ORDER_FAILED (R22). A held expiry is settled by R36. -/
def Obligations.ClaimIsAcknowledged : Prop :=
  ∀ (s : State) (e : Entry) (r : Record) (p x : Pos) (l y : LoopNo) (d : Byte), s.answering e → s.slot e.slot = .live r →
    e.order = .connect x y → (r.loc = .queued ∨ ∃ o, r.loc = .parked o) → r.claim = some ⟨p, l, true⟩ →
    (∃ u : State, exec (.responseDone (e.reply 1 d)) s = .next u.finishAll ∧
      s.workAt u p l (.talk e.slot) (s.view p) (s.pos p).note [] ∧
      (∀ o, u.orbit o =
        if r.loc ≠ .queued ∧ (s.orbit o = .occupied e.slot ∨ s.orbit o = .reserved e.slot) then .empty else s.orbit o) ∧
      u = { s.withoutEntry e.slot with
        slots := s.slots.set e.slot (.live { r with
          loc := .loop p l, claim := none, owner := some p, timer := none, held := none })
        queue := if r.loc = .queued then s.queue.filter (fun j => j != e.slot) else s.queue
        orbits := u.orbits, positions := u.positions }) ∧
    (d ≠ 2 → r.held = none →
      ∃ u : State, exec (.responseRefused (e.reply 2 d)) s = .next u.finishAll ∧
        s.workAt u p l .idle (s.viewRaised p .orderFailed l (s.viewWithout p l (s.view p))) (s.pos p).note
          (raisedTones (s.pos p) .orderFailed) ∧
        u = { s.withoutEntry e.slot with
          slots := s.slots.set e.slot (.live { r with
            claim := none, timer := if r.loc = .queued ∧ r.timer = none then s.agingTimer r else r.timer })
          positions := u.positions })

/-- The response to the HOLD of a TALK loop. DONE: the loop is HELD with HOLD_RECALL armed from now, or, where an orbit is reserved
for the record, the call is PARKED there with PARK_RECALL armed and the loop IDLE with its PARKED note; a Pickup that waited for
the record is then granted and its CONNECT issued. A refusal: the loop stays in TALK with ORDER_FAILED and the orbit is EMPTY
again, and a Pickup that waited is dropped: its loop is IDLE and its position hears the error tone (R79, R81, R112, R21). -/
def Obligations.HoldAndParkAreAnswered : Prop :=
  ∀ (s : State) (e : Entry) (r : Record) (p : Pos) (l : LoopNo) (j : Slot) (d : Byte), s.answering e →
    s.slot e.slot = .live r → e.order = .hold → r.loc = .loop p l → s.loop p l = .talk j → r.held = none →
    (r.claim = none → (∀ o, s.orbit o ≠ .reserved e.slot) →
      ∃ u : State, exec (.responseDone (e.reply 1 d)) s = .next u.finishAll ∧
        s.workAt u p l (.held e.slot) (s.view p) (s.pos p).note [] ∧
        u = { s.withoutEntry e.slot with
          slots := s.slots.set e.slot (.live { r with
            timer := some ⟨.holdRecall, s.tick + s.timing.holdRecall, false⟩ })
          positions := u.positions }) ∧
    (∀ o, (∀ x, s.orbit x = .reserved e.slot ↔ x = o) →
      (∀ claim, r.claim = claim → claim = none ∨ (∃ q m, (q, m) ≠ (p, l) ∧ claim = some ⟨q, m, false⟩) →
        ∃ u : State, exec (.responseDone (e.reply 1 d)) s = .next u.finishAll ∧
          s.workAt u p l .idle (s.viewWithout p l (s.view p)) (some ⟨s.tagLine (some e.slot) l, parkedText o⟩) [] ∧
          u = { s.withoutEntry e.slot with
            slots := s.slots.set e.slot (.live { r with
              loc := .parked o, owner := some p, claim := claim.map fun c => { c with granted := true }
              timer := some ⟨.parkRecall, s.tick + s.timing.parkRecall, false⟩ })
            orders := (s.withoutEntry e.slot).orders ++
              (match claim with
              | some c => [Entry.fresh e.slot r (.connect c.pos c.loop) .none]
              | none => [])
            orbits := s.orbits.set o (.occupied e.slot), positions := u.positions })) ∧
    (d ≠ 2 → r.claim = none → (∀ x y, s.orbit x = .reserved e.slot → s.orbit y = .reserved e.slot → x = y) →
      ∃ u : State, exec (.responseRefused (e.reply 2 d)) s = .next u.finishAll ∧
        s.workAt u p l (.talk j) (s.viewRaised p .orderFailed l (s.view p)) (s.pos p).note
          (raisedTones (s.pos p) .orderFailed) ∧
        (∀ x, u.orbit x = if s.orbit x = .reserved e.slot then .empty else s.orbit x) ∧
        u = { s.withoutEntry e.slot with orbits := u.orbits, positions := u.positions }) ∧
    ∀ q m, d ≠ 2 → r.claim = some ⟨q, m, false⟩ → q ≠ p →
      (∀ x y, s.orbit x = .reserved e.slot → s.orbit y = .reserved e.slot → x = y) →
      ∃ v u : State, exec (.responseRefused (e.reply 2 d)) s = .next u.finishAll ∧
        s.workAt v p l (.talk j) (s.viewRaised p .orderFailed l (s.view p)) (s.pos p).note
          (raisedTones (s.pos p) .orderFailed) ∧
        v.workAt u q m .idle (s.viewWithout q m (s.view q)) (s.pos q).note (errorTones (s.pos q)) ∧
        (∀ x, u.orbit x = if s.orbit x = .reserved e.slot then .empty else s.orbit x) ∧
        u = { s.withoutEntry e.slot with
          slots := s.slots.set e.slot (.live { r with claim := none }), orbits := u.orbits, positions := u.positions }

/-- The extend sequence up to the destination's answer: SPLIT DONE gives step 2 and issues RING_EXT for the destination, and SPLIT
refused gives TALK with step 0, no destination and ORDER_FAILED; RING_EXT DONE gives step 3 for RINGING, step 4 with DEST_BUSY
for BUSY, and the return CONNECT with step 6 and DEST_UNOBTAINABLE for any other result; RING_EXT refused gives the return CONNECT
with ORDER_FAILED (R94, R95, R103, R128). -/
def Obligations.SplitAndRingAreAnswered : Prop :=
  ∀ (s : State) (e : Entry) (r : Record) (p : Pos) (l : LoopNo) (j : Slot) (d : Byte), s.answering e →
    s.slot e.slot = .live r → r.loc = .loop p l → s.loop p l = .extend j → r.claim = none → r.held = none →
    let failed := fun (x : LoopState) (k : AlertKind) (u : State) =>
      s.workAt u p l x (s.viewRaised p k l (s.view p)) (s.pos p).note (raisedTones (s.pos p) k)
    let t := s.withoutEntry e.slot
    (∀ ext, e.order = .split → r.dest = some ext →
      exec (.responseDone (e.reply 1 d)) s = .next (State.finishAll { t with
        slots := s.slots.set e.slot (.live { r with step := 2 })
        orders := t.orders ++ [Entry.fresh e.slot r (.ringExt ext) .none] })) ∧
    (e.order = .split → d ≠ 2 →
      ∃ u : State, exec (.responseRefused (e.reply 2 d)) s = .next u.finishAll ∧ failed (.talk e.slot) .orderFailed u ∧
        u = { t with
          slots := s.slots.set e.slot (.live { r with step := 0, dest := none }), positions := u.positions }) ∧
    ∀ ext, e.order = .ringExt ext →
      exec (.responseDone (e.reply 1 1)) s =
        .next (State.finishAll { t with slots := s.slots.set e.slot (.live { r with step := 3 }) }) ∧
      (∃ u : State, exec (.responseDone (e.reply 1 2)) s = .next u.finishAll ∧ failed (.extend j) .destBusy u ∧
        u = { t with slots := s.slots.set e.slot (.live { r with step := 4 }), positions := u.positions }) ∧
      (d ≠ 1 → d ≠ 2 →
        ∃ u : State, exec (.responseDone (e.reply 1 d)) s = .next u.finishAll ∧ failed (.extend j) .destUnobtainable u ∧
          u = { t with
            slots := s.slots.set e.slot (.live { r with step := 6 })
            orders := t.orders ++ [Entry.fresh e.slot r (.connect p l) .none], positions := u.positions }) ∧
      (d ≠ 2 →
        ∃ u : State, exec (.responseRefused (e.reply 2 d)) s = .next u.finishAll ∧ failed (.extend j) .orderFailed u ∧
          u = { t with
            slots := s.slots.set e.slot (.live { r with step := 6 })
            orders := t.orders ++ [Entry.fresh e.slot r (.connect p l) .none], positions := u.positions })

/-- TRANSFER at an EXTEND loop: unscreened DONE moves the record to the extended set with NO_ANSWER armed from now and the loop
IDLE with the EXTENDED note; screened DONE retires it, the slot FREE and the loop IDLE; a refusal gives ORDER_FAILED and step 3
after an unscreened transfer, step 5 after a screened one (R98, R99, R120, R159). -/
def Obligations.TransferIsAnswered : Prop :=
  ∀ (s : State) (e : Entry) (r : Record) (p : Pos) (l : LoopNo) (j : Slot) (ext : Digits) (d : Byte), s.answering e →
    s.slot e.slot = .live r → r.loc = .loop p l → s.loop p l = .extend j → r.claim = none → r.mark = none →
    r.held = none → e.order = .transfer → r.dest = some ext → e.mark = .screened ∨ e.mark = .unscreened →
    let t := s.withoutEntry e.slot
    (e.mark = .unscreened →
      ∃ u : State, exec (.responseDone (e.reply 1 d)) s = .next u.finishAll ∧
        s.workAt u p l .idle (s.viewWithout p l (s.view p)) (some ⟨s.tagLine (some e.slot) l, extendedText ext⟩) [] ∧
        u = { t with
          slots := s.slots.set e.slot (.live { r with
            loc := .extended ext, step := 0, timer := some ⟨.noAnswer, s.tick + s.timing.noAnswer, false⟩ })
          positions := u.positions }) ∧
    (e.mark = .screened →
      ∃ u : State, exec (.responseDone (e.reply 1 d)) s = .next u.finishAll ∧
        s.workAt u p l .idle (s.viewWithout p l (s.view p)) (some ⟨s.tagLine (some e.slot) l, digitChars r.digits⟩) [] ∧
        (∀ o, u.orbit o = if s.orbit o = .occupied e.slot ∨ s.orbit o = .reserved e.slot then .empty else s.orbit o) ∧
        u = { t with slots := s.slots.set e.slot .free, orbits := u.orbits, positions := u.positions }) ∧
    (d ≠ 2 →
      ∃ u : State, exec (.responseRefused (e.reply 2 d)) s = .next u.finishAll ∧
        s.workAt u p l (.extend j) (s.viewRaised p .orderFailed l (s.view p)) (s.pos p).note
          (raisedTones (s.pos p) .orderFailed) ∧
        u = { t with
          slots := s.slots.set e.slot (.live { r with step := if e.mark = .screened then 5 else 3 })
          positions := u.positions })

/-- CAMP DONE moves the record to the tail of its destination's camp-on list with CAMP_TIMEOUT armed from now and the loop IDLE
with the CAMPED note, and CAMP refused gives step 4 with ORDER_FAILED; DROP_DEST DONE issues the return CONNECT with step 6, and
DROP_DEST refused does so with ORDER_FAILED; the return CONNECT DONE gives TALK with step 0 and no destination, and refused
makes the loop LOCKED with a LOCKOUT alert and the LOCKED note (R102, R116, R100, R104, R105, R159). -/
def Obligations.CampAndReturnAreAnswered : Prop :=
  ∀ (s : State) (e : Entry) (r : Record) (p : Pos) (l : LoopNo) (j : Slot) (d : Byte), s.answering e →
    s.slot e.slot = .live r → r.loc = .loop p l → s.loop p l = .extend j → r.claim = none → r.held = none →
    let t := s.withoutEntry e.slot
    (∀ ext, e.order = .camp ext →
      (∃ u : State, exec (.responseDone (e.reply 1 d)) s = .next u.finishAll ∧
        s.workAt u p l .idle (s.viewWithout p l (s.view p)) (some ⟨s.tagLine (some e.slot) l, campedText ext⟩) [] ∧
        u.campedOn ext = s.campedOn ext ++ [e.slot] ∧ (∀ x, x ≠ ext → u.campedOn x = s.campedOn x) ∧
        u = { t with
          slots := s.slots.set e.slot (.live { r with
            loc := .camped ext, dest := some ext, step := 0
            timer := some ⟨.campTimeout, s.tick + s.timing.camp, false⟩ })
          camp := u.camp, positions := u.positions }) ∧
      (d ≠ 2 →
        ∃ u : State, exec (.responseRefused (e.reply 2 d)) s = .next u.finishAll ∧
          s.workAt u p l (.extend j) (s.viewRaised p .orderFailed l (s.view p)) (s.pos p).note
            (raisedTones (s.pos p) .orderFailed) ∧
          u = { t with slots := s.slots.set e.slot (.live { r with step := 4 }), positions := u.positions })) ∧
    (e.order = .dropDest →
      exec (.responseDone (e.reply 1 d)) s = .next (State.finishAll { t with
        slots := s.slots.set e.slot (.live { r with step := 6 })
        orders := t.orders ++ [Entry.fresh e.slot r (.connect p l) .none] }) ∧
      (d ≠ 2 →
        ∃ u : State, exec (.responseRefused (e.reply 2 d)) s = .next u.finishAll ∧
          s.workAt u p l (.extend j) (s.viewRaised p .orderFailed l (s.view p)) (s.pos p).note
            (raisedTones (s.pos p) .orderFailed) ∧
          u = { t with
            slots := s.slots.set e.slot (.live { r with step := 6 })
            orders := t.orders ++ [Entry.fresh e.slot r (.connect p l) .none], positions := u.positions })) ∧
    ∀ x y, e.order = .connect x y →
      (∃ u : State, exec (.responseDone (e.reply 1 d)) s = .next u.finishAll ∧
        s.workAt u p l (.talk e.slot) (s.view p) (s.pos p).note [] ∧
        u = { t with
          slots := s.slots.set e.slot (.live { r with step := 0, dest := none }), positions := u.positions }) ∧
      (d ≠ 2 →
        ∃ u : State, exec (.responseRefused (e.reply 2 d)) s = .next u.finishAll ∧
          s.workAt u p l (.locked e.slot) (s.viewRaised p .lockout l (s.view p))
            (some ⟨s.tagLine (some e.slot) l, lockedText⟩) (raisedTones (s.pos p) .lockout) ∧
          u = { t with
            slots := s.slots.set e.slot (.live { r with step := 0, dest := none, timer := none, held := none })
            positions := u.positions })

/-- The other orders of a call on a loop, and DIVERT. A retrieving CONNECT: DONE gives TALK with no timer and takes a
HOLD_RECALL entry of the loop off the alert list, and a refusal leaves the loop with ORDER_FAILED (R78). RELEASE: DONE retires
the call, the slot FREE and the loop IDLE, and a refusal gives ORDER_FAILED (R80), but at a LOCKED loop a refusal of any reason,
NO_CALL among them, retires the call and leaves the loop IDLE without an alert (R82, R16; log 33). DIVERT of a QUEUED call: DONE
retires it; a refusal spends the overflow of an overflow DIVERT and otherwise changes nothing (R60, R65). -/
def Obligations.LoopOrdersAndDivertsAreAnswered : Prop :=
  ∀ (s : State) (e : Entry) (r : Record) (d : Byte), s.answering e → s.slot e.slot = .live r → r.claim = none →
    r.mark = none → r.held = none →
    let t := s.withoutEntry e.slot
    let freed := fun u : State =>
      (∀ o, u.orbit o = if s.orbit o = .occupied e.slot ∨ s.orbit o = .reserved e.slot then .empty else s.orbit o) ∧
      u = { t with
        slots := s.slots.set e.slot .free
        queue := if r.loc = .queued then s.queue.filter (fun j => j != e.slot) else s.queue
        orbits := u.orbits, positions := u.positions }
    (∀ p l, r.loc = .loop p l →
      let failed := fun u : State =>
        s.workAt u p l (s.loop p l) (s.viewRaised p .orderFailed l (s.view p)) (s.pos p).note
          (raisedTones (s.pos p) .orderFailed) ∧ u = { t with positions := u.positions }
      (∀ j x y, s.loop p l = .held j ∨ s.loop p l = .recalling j → e.order = .connect x y →
        (∃ u : State, exec (.responseDone (e.reply 1 d)) s = .next u.finishAll ∧
          s.workAt u p l (.talk e.slot) (s.viewWithoutKind p l .holdRecall (s.view p)) (s.pos p).note [] ∧
          u = { t with
            slots := s.slots.set e.slot (.live { r with timer := none, held := none }), positions := u.positions }) ∧
        (d ≠ 2 → ∃ u : State, exec (.responseRefused (e.reply 2 d)) s = .next u.finishAll ∧ failed u)) ∧
      (∀ j, s.loop p l = .talk j ∨ s.loop p l = .held j ∨ s.loop p l = .recalling j → e.order = .release →
        (∃ u : State, exec (.responseDone (e.reply 1 d)) s = .next u.finishAll ∧
          s.workAt u p l .idle (s.viewWithout p l (s.view p)) (s.pos p).note [] ∧ freed u) ∧
        (d ≠ 2 → ∃ u : State, exec (.responseRefused (e.reply 2 d)) s = .next u.finishAll ∧ failed u)) ∧
      ∀ j c, s.loop p l = .locked j → e.order = .release →
        c = .responseDone (e.reply 1 d) ∨ c = .responseRefused (e.reply 2 d) →
        ∃ u : State, exec c s = .next u.finishAll ∧
          s.workAt u p l .idle (s.viewWithout p l (s.view p)) (s.pos p).note [] ∧ freed u) ∧
    ∀ ext, r.loc = .queued → e.order = .divert ext →
      (∃ u : State, exec (.responseDone (e.reply 1 d)) s = .next u.finishAll ∧ u.positions = s.positions ∧ freed u) ∧
      (d ≠ 2 → exec (.responseRefused (e.reply 2 d)) s = .next (State.finishAll { t with
        slots := s.slots.set e.slot (.live { r with overflowSpent := r.overflowSpent || e.mark == .overflow }) }))

/-- The orders of a call on a camp-on list or in the extended set. RETRIEVE DONE sends it to the queue as RECALL(CAMP) or
RECALL(NO_ANSWER) with its owner; refused, the timer is re-armed from its deadline; refused with ANSWERED, an EXTENDED call is
retired (R119, R121, R34). RING_EXT of a camped call: RINGING moves it to the extended set with NO_ANSWER armed from now, BUSY
leaves it where it is, and any other answer sends it to the queue as RECALL(CAMP) (R118). The other calls of a camp-on list that it
leaves keep their order, and an entry left empty is freed (R115). -/
def Obligations.CampedAndExtendedCallsAreAnswered : Prop :=
  ∀ (s : State) (e : Entry) (r : Record) (d : Byte), s.answering e → s.slot e.slot = .live r → r.claim = none →
    r.mark = none → r.held = none →
    let t := s.withoutEntry e.slot
    let recalls := fun (c : Instr) (why : RecallReason) => ∃ u : State, exec c s = .next u.finishAll ∧
      s.thresholdShown u r.tenant ∧
      ((∃ y, r.loc = .camped y) → s.campLeft u e.slot) ∧ ((∀ y, r.loc ≠ .camped y) → u.camp = s.camp) ∧
      u = { t with
        slots := s.slots.set e.slot (.live (s.recalled r why r.owner)), queue := s.queue ++ [e.slot]
        orders := t.orders ++ s.nightEntries e.slot r, camp := u.camp, positions := u.positions }
    (∀ ext tm, r.loc = .camped ext → e.order = .retrieve → r.timer = some tm →
      recalls (.responseDone (e.reply 1 d)) .camp ∧
      (d ≠ 2 → exec (.responseRefused (e.reply 2 d)) s = .next (State.finishAll { t with
        slots := s.slots.set e.slot (.live { r with
          timer := some ⟨.campTimeout, rearmed s.tick tm.deadline s.timing.camp, false⟩ }) }))) ∧
    (∀ ext tm, r.loc = .extended ext → e.order = .retrieve → r.timer = some tm →
      recalls (.responseDone (e.reply 1 d)) .noAnswer ∧
      (d ≠ 2 → d ≠ 3 → exec (.responseRefused (e.reply 2 d)) s = .next (State.finishAll { t with
        slots := s.slots.set e.slot (.live { r with
          timer := some ⟨.noAnswer, rearmed s.tick tm.deadline s.timing.noAnswer, false⟩ }) })) ∧
      ∃ u : State, exec (.responseRefused (e.reply 2 3)) s = .next u.finishAll ∧
        (∀ o, u.orbit o = if s.orbit o = .occupied e.slot ∨ s.orbit o = .reserved e.slot then .empty else s.orbit o) ∧
        u = { t with slots := s.slots.set e.slot .free, orbits := u.orbits }) ∧
    ∀ ext dial, r.loc = .camped ext → e.order = .ringExt dial →
      (∃ u : State, exec (.responseDone (e.reply 1 1)) s = .next u.finishAll ∧
        s.campLeft u e.slot ∧
        u = { t with
          slots := s.slots.set e.slot (.live { r with
            loc := .extended ext, dest := some ext, step := 0
            timer := some ⟨.noAnswer, s.tick + s.timing.noAnswer, false⟩ })
          camp := u.camp }) ∧
      exec (.responseDone (e.reply 1 2)) s = .next t.finishAll ∧
      (d ≠ 1 → d ≠ 2 → recalls (.responseDone (e.reply 1 d)) .camp) ∧
      (d ≠ 2 → recalls (.responseRefused (e.reply 2 d)) .camp)

/-- The orders of a call in the rescue set, after the table of R88: an order that leaves the caller connected or split is followed
by a rescue HOLD, TRANSFER, DROP_DEST or final RELEASE, or the call goes to an orbit, to a camp-on list, to the extended set or to
the queue as RECALL(POSITION_LOST) with no owner, or is retired (R88, R89). A Pickup that waited for a park HOLD of the failed
position is granted after DONE, and after a refusal its claim is dropped although the rescue RELEASE is issued (R90, R21; log
15). -/
def Obligations.RescuedCallsAreAnswered : Prop :=
  (∀ (s : State) (e : Entry) (r : Record) (m : Rescue) (d : Byte), s.answering e → s.slot e.slot = .live r →
    r.loc = .rescue m → r.claim = none → r.mark = none → r.held = none →
    let t := s.withoutEntry e.slot
    let done := Instr.responseDone (e.reply 1 d)
    let refused := Instr.responseRefused (e.reply 2 d)
    let toQueue := fun (c : Instr) => ∃ u : State, exec c s = .next u.finishAll ∧ s.thresholdShown u r.tenant ∧
      u = { t with
        slots := s.slots.set e.slot (.live (s.recalled r .positionLost none)), queue := s.queue ++ [e.slot]
        orders := t.orders ++ s.nightEntries e.slot r, positions := u.positions }
    let freed := fun (u : State) =>
      ∀ o, u.orbit o = if s.orbit o = .occupied e.slot ∨ s.orbit o = .reserved e.slot then .empty else s.orbit o
    let retires := fun (c : Instr) => ∃ u : State, exec c s = .next u.finishAll ∧ freed u ∧
      u = { t with slots := s.slots.set e.slot .free, orbits := u.orbits }
    let holds := fun (c : Instr) (x : CallerCondition) => exec c s = .next (State.finishAll { t with
        slots := s.slots.set e.slot (.live { r with loc := .rescue { m with condition := x, orbit := none } })
        orders := t.orders ++ [Entry.fresh e.slot r .hold .none] })
    (∀ p l, e.order = .connect p l → holds done .connected ∧ (d ≠ 2 → toQueue refused)) ∧
    (e.order = .hold →
      (m.orbit = none → toQueue done) ∧
      (∀ o, m.orbit = some o → exec done s = .next (State.finishAll { t with
        slots := s.slots.set e.slot (.live { r with
          loc := .parked o, owner := some m.failed
          timer := some ⟨.parkRecall, s.tick + s.timing.parkRecall, false⟩ })
        orbits := s.orbits.set o (.occupied e.slot) })) ∧
      (d ≠ 2 → ∃ u : State, exec refused s = .next u.finishAll ∧ freed u ∧
        u = { t with
          slots := s.slots.set e.slot (.live { r with loc := .rescue { m with orbit := none, final := true } })
          orders := t.orders ++ [Entry.fresh e.slot r .release .none], orbits := u.orbits })) ∧
    (e.order = .release →
      retires done ∧ (d ≠ 2 → m.final = true → retires refused) ∧
      (d ≠ 2 → m.final = false → m.condition = .connected → holds refused .connected) ∧
      (d ≠ 2 → m.final = false → m.condition = .split → toQueue refused)) ∧
    (e.order = .split → toQueue done ∧ (d ≠ 2 → holds refused m.condition)) ∧
    (∀ ext, e.order = .ringExt ext →
      (d = 1 → exec done s = .next (State.finishAll { t with
        slots := s.slots.set e.slot (.live { r with step := 6 })
        orders := t.orders ++ [Entry.fresh e.slot r .transfer .unscreened] })) ∧
      (d ≠ 1 → toQueue done) ∧ (d ≠ 2 → toQueue refused)) ∧
    (e.order = .transfer →
      (e.mark = .screened → retires done) ∧
      (∀ ext, e.mark = .unscreened → r.dest = some ext → exec done s = .next (State.finishAll { t with
        slots := s.slots.set e.slot (.live { r with
          loc := .extended ext, step := 0, owner := none
          timer := some ⟨.noAnswer, s.tick + s.timing.noAnswer, false⟩ }) })) ∧
      (d ≠ 2 → exec refused s = .next (State.finishAll { t with
        orders := t.orders ++ [Entry.fresh e.slot r .dropDest .none] }))) ∧
    (∀ ext, e.order = .camp ext →
      (∃ u : State, exec done s = .next u.finishAll ∧
        u.campedOn ext = s.campedOn ext ++ [e.slot] ∧ (∀ x, x ≠ ext → u.campedOn x = s.campedOn x) ∧
        u = { t with
          slots := s.slots.set e.slot (.live { r with
            loc := .camped ext, dest := some ext, step := 0
            timer := some ⟨.campTimeout, s.tick + s.timing.camp, false⟩ })
          camp := u.camp }) ∧
      (d ≠ 2 → toQueue refused)) ∧
    (e.order = .dropDest → toQueue done ∧ (d ≠ 2 → toQueue refused))) ∧
  ∀ (s : State) (e : Entry) (r : Record) (m : Rescue) (q : Pos) (n : LoopNo) (d : Byte), s.answering e →
    s.slot e.slot = .live r → r.loc = .rescue m → e.order = .hold → r.claim = some ⟨q, n, false⟩ → r.mark = none →
    r.held = none →
    let t := s.withoutEntry e.slot
    (∀ o, m.orbit = some o → exec (.responseDone (e.reply 1 d)) s = .next (State.finishAll { t with
      slots := s.slots.set e.slot (.live { r with
        loc := .parked o, owner := some m.failed, claim := some ⟨q, n, true⟩
        timer := some ⟨.parkRecall, s.tick + s.timing.parkRecall, false⟩ })
      orders := t.orders ++ [Entry.fresh e.slot r (.connect q n) .none]
      orbits := s.orbits.set o (.occupied e.slot) })) ∧
    (d ≠ 2 → ∃ u : State, exec (.responseRefused (e.reply 2 d)) s = .next u.finishAll ∧
      s.workAt u q n .idle (s.viewWithout q n (s.view q)) (s.pos q).note (errorTones (s.pos q)) ∧
      (∀ o, u.orbit o = if s.orbit o = .occupied e.slot ∨ s.orbit o = .reserved e.slot then .empty else s.orbit o) ∧
      u = { t with
        slots := s.slots.set e.slot (.live { r with claim := none, loc := .rescue { m with orbit := none, final := true } })
        orders := t.orders ++ [Entry.fresh e.slot r .release .none], orbits := u.orbits, positions := u.positions })

/-! ### Tables (chapter 8) -/

/-- TENANT_SET writes one whole entry of the tenant table and TIMING_SET the whole timing table, in every link state; every interval
written is stored as 1 for 0 and as 32767 above 32767, the other numbers are clamped to their maxima, a tag character outside
0x20 to 0x7E is stored as a space, and the pictures follow; nothing else changes (R27, R147, R148). -/
def Obligations.TablesAreWrittenClamped : Prop :=
  (∀ (s : State) (t : TenantNo) (sv cb w os th : Byte) (aging : BitVec 16) (tag : List Byte) (od nd : Digits)
      (pad pad' : List Byte), tag.length = 16 → extFieldOk od pad → extFieldOk nd pad' →
    exec (.tenantSet ([BitVec.ofNat 8 t.val, sv] ++ tag ++ [cb] ++ wordBytes aging ++ [w, os, th] ++ extField od pad ++
        extField nd pad')) s =
      .next (State.refresh { s with
        tenants := s.tenants.set t {
          inService := decide (sv ≠ 0)
          tag := tag.map fun ch => if 0x20 ≤ ch.toNat ∧ ch.toNat ≤ 0x7E then ch else 0x20
          classBase := min 63 cb.toNat, agingInterval := keptInterval aging, agingWeight := min 8 w.toNat
          overflowStep := min 15 os.toNat, overflowDest := if od = [] then none else some od
          nightDest := if nd = [] then none else some nd, threshold := min 127 th.toNat } })) ∧
  ∀ (s : State) (a b c d e f g h i : BitVec 16),
    exec (.timingSet (wordBytes a ++ wordBytes b ++ wordBytes c ++ wordBytes d ++ wordBytes e ++ wordBytes f ++
        wordBytes g ++ wordBytes h ++ wordBytes i)) s =
      .next { s with timing := {
        offer := keptInterval a, holdRecall := keptInterval b, escalation := keptInterval c, noAnswer := keptInterval d
        camp := keptInterval e, parkRecall := keptInterval f, nightDelay := keptInterval g, retryDelay := keptInterval h
        orderTimeout := keptInterval i } }

/-- POSITION_SET replaces the three masks of an equipped position, disregarding the upper five bits of the latch and tone masks,
and offers follow: with an entry sounding under the new tone mask, an unarmed deadline is armed 30 ticks from now and the tone
sounds at once, and with none sounding the deadline is disarmed. For an ABSENT position nothing happens (R149, R160). -/
def Obligations.PositionSetReplacesTheMasks : Prop :=
  ∀ (s : State) (p : Pos) (tm lm nm : BitVec 16),
    exec (.positionSet ([BitVec.ofNat 8 p.val] ++ wordBytes tm ++ wordBytes lm ++ wordBytes nm)) s = .next
      (if (s.pos p).state = .absent then s
      else State.finishOffers (s.updPos p fun q =>
        let q1 := { q with tenantMask := tm, latchMask := lm.setWidth 11, toneMask := nm.setWidth 11 }
        if ∃ a ∈ q.alerts, q1.toneMask.getLsbD a.kind.bit = true then
          if q.toneRepeat = none then
            { q1 with
              toneRepeat := some (s.tick + 30)
              txq := q.txq ++ (if (q.txq.filter TxEntry.isTone).length < 4 then
                [.tone (if ∃ a ∈ q.alerts, q1.toneMask.getLsbD a.kind.bit = true ∧ a.kind = .offer then .ring
                  else .beep)]
                else []) }
          else q1
        else { q1 with toneRepeat := none }))

/-! ### Keys (chapters 4, 5 and 9) -/

/-- A KEY frame of a console is the key row of its kind code 1 to 15, at the same position with the same loop byte and argument, and
is taken in every state; at a position with an empty key buffer the frame of Open opens a CLOSED position, and that of Hold holds
the TALK call of the loop it names. A frame of another type, of another length or of an unlisted kind is discarded without a
report (R153, R145, R154, R73, R68, R79). -/
def Obligations.KeyFrameIsItsKey : Prop :=
  (∀ (s : State) (p : Pos) (n : Fin 15) (l c d0 d1 d2 d3 d4 d5 : Byte),
    exec (.key p 0x31 [BitVec.ofNat 8 (n.val + 1), l, c, d0, d1, d2, d3, d4, d5]) s =
      exec (keyCommand (allKeys.get n) p ⟨l, c, [d0, d1, d2, d3, d4, d5]⟩) s ∧
    ∃ t, exec (.key p 0x31 [BitVec.ofNat 8 (n.val + 1), l, c, d0, d1, d2, d3, d4, d5]) s = .next t) ∧
  (∀ (s : State) (p : Pos) (six : List Byte), six.length = 6 → (s.pos p).keys = [] →
    ((s.pos p).state = .closed → exec (.key p 0x31 ([1, 0, 0] ++ six)) s = .next (State.finishOffers
      { s.updPos p (fun q => { q with state := .opened }) with night := .day, nightDelay := none })) ∧
    ∀ (l : LoopNo) (i : Slot) (r : Record), (s.pos p).state = .opened ∨ (s.pos p).state = .withdrawn →
      s.loop p l = .talk i → s.settled i r →
      exec (.key p 0x31 ([10, BitVec.ofNat 8 (l.val + 1), 0] ++ six)) s =
        .next (State.finishOffers { s with orders := s.orders ++ [Entry.fresh i r .hold .none] })) ∧
  ∀ (s : State) (p : Pos) (typ : Byte) (body : List Byte),
    typ ≠ 0x31 ∨ body.length ≠ 9 ∨ (∃ k, body.head? = some k ∧ (k = 0 ∨ 15 < k.toNat)) →
    exec (.key p typ body) s = .next s

/-- A key at a FAULTED or ABSENT position is discarded silently; with two keys in the buffer it is discarded with the error tone; a
loop key whose loop refers to a record with an order in flight waits in the buffer, and so does any key behind it (R73, R74). -/
def Obligations.KeysAreDiscardedOrWait : Prop :=
  ∀ (s : State) (p : Pos) (k : KeyKind) (a : KeyArgs),
    ((s.pos p).state = .faulted ∨ (s.pos p).state = .absent → exec (keyCommand k p a) s = .next s) ∧
    ((s.pos p).state ≠ .faulted → (s.pos p).state ≠ .absent → 2 ≤ (s.pos p).keys.length →
      exec (keyCommand k p a) s = .next (s.errored p)) ∧
    ((s.pos p).state ≠ .faulted → (s.pos p).state ≠ .absent →
      (∀ first, (s.pos p).keys ++ [⟨k, a⟩] = first →
        first.length ≤ 2 → (∃ m ∈ first.head?, KeyKind.isLoopKey m.kind = true ∧ ∃ l i, m.args.loop.toNat = l.val + 1 ∧
          ((s.loop p l).slot? = some i) ∧ ∃ e ∈ s.orders, e.slot = i) →
        exec (keyCommand k p a) s = .next (s.updPos p fun q => { q with keys := first }).finishOffers))

/-- A key that is evaluated and is out of range, or not valid at the position or its loop, gives the error tone and nothing else: a
loop byte outside 1 to 6 for a loop key, a loop byte but 0 for a position key, an argument of a key that takes none, a
wrong argument, every key but Open at a CLOSED position, a position key in the wrong position state, and a loop key whose loop is
in a state it is not for (R75, R67, R68, R77 to R82, R93, R98 to R101). -/
def Obligations.InvalidKeysGiveTheErrorTone : Prop :=
  ∀ (s : State) (p : Pos) (k : KeyKind) (a : KeyArgs), (s.pos p).state ≠ .faulted → (s.pos p).state ≠ .absent →
    s.keyFree p k a →
    ((KeyKind.isLoopKey k = true ∧ (a.loop = 0 ∨ 6 < a.loop.toNat)) ∨
      (KeyKind.isLoopKey k = false ∧ a.loop ≠ 0) ∨
      (k ≠ .pickup ∧ k ≠ .park ∧ k ≠ .extend ∧ a.count ≠ 0) ∨
      (k = .extend ∧ (a.count.toNat < 2 ∨ 6 < a.count.toNat)) ∨
      (k = .pickup ∧ a.count ≠ 2) ∨ (k = .park ∧ a.count ≠ 0 ∧ a.count ≠ 2) ∨
      ((k = .pickup ∨ k = .park ∨ k = .extend) ∧ ∃ b ∈ a.digits.take a.count.toNat, 9 < b.toNat) ∨
      ((k = .pickup ∨ k = .park) ∧ ∃ b ∈ a.digits.head?, 1 < b.toNat ∧ a.count = 2) ∨
      ((s.pos p).state = .closed ∧ k ≠ .opening) ∨
      ((s.pos p).state ≠ .closed ∧ k = .opening) ∨
      ((s.pos p).state ≠ .opened ∧ k = .withdraw) ∨
      ((s.pos p).state ≠ .withdrawn ∧ k = .resume) ∨
      (k = .closing ∧ ∃ l, s.loop p l ≠ .idle) ∨
      (k = .review ∧ (s.pos p).alerts = []) ∨
      ((k = .answerNext ∨ k = .pickup ∨ k = .loop) ∧ s.voiceFree p = false) ∨
      (k = .answerNext ∧ ((∃ l i, s.loop p l = .alerting i) ∨ (∀ l, s.loop p l ≠ .idle) ∨
        ∀ i ∈ s.queue, s.eligible p i = false)) ∨
      (k = .pickup ∧ ((∀ l, s.loop p l ≠ .idle) ∨
        ∀ o, orbitOf a = some o → s.orbit o = .empty ∨
          ∃ i r, (s.orbit o = .occupied i ∨ s.orbit o = .reserved i) ∧ s.slot i = .live r ∧ r.claim ≠ none)) ∨
      ∃ l, a.loop.toNat = l.val + 1 ∧
        match k, s.loop p l with
        | .loop, .alerting i => ∃ r, s.slot i = .live r ∧ r.claim ≠ none
        | .loop, .held _ | .loop, .recalling _ => False
        | .loop, _ => True
        | .hold, .talk _ | .extend, .talk _ => False
        | .hold, _ | .extend, _ => True
        | .park, .talk _ | .park, .held _ =>
          (∀ o, parkArgument a = some (some o) → s.orbit o ≠ .empty) ∧ (a.count = 0 → ∀ o, s.orbit o ≠ .empty)
        | .park, _ => True
        | .release, .talk _ | .release, .held _ | .release, .recalling _ => False
        | .release, .extend i => ∀ r, s.slot i = .live r → r.step ≠ 3 ∧ r.step ≠ 5
        | .release, _ => True
        | .cancel, .extend i => ∀ r, s.slot i = .live r → r.step ≠ 3 ∧ r.step ≠ 4 ∧ r.step ≠ 5
        | .cancel, _ => True
        | .camp, .extend i => ∀ r, s.slot i = .live r → r.step ≠ 4 ∨ ∀ ext, r.dest = some ext → ¬ s.hasRoom ext
        | .camp, _ => True
        | .clear, .locked _ => False
        | .clear, _ => True
        | _, _ => False) →
    exec (keyCommand k p a) s = .next (s.errored p).finishOffers

/-- Open makes a CLOSED position OPEN and the night state DAY; Close makes a staffed position with every loop IDLE CLOSED, empties
its alert list, drops its note, and with no other staffed position makes the night state NIGHT_PENDING with the night delay
armed from now; Withdraw and Resume change OPEN and WITHDRAWN (R68, R62, R163, R160, R159). Then offers. -/
def Obligations.OpenCloseWithdrawResume : Prop :=
  ∀ (s : State) (p : Pos) (a : KeyArgs), (s.pos p).keys = [] → a.loop = 0 → a.count = 0 →
    ((s.pos p).state = .closed → exec (.openKey p a) s = .next (State.finishOffers
      { s.updPos p (fun q => { q with state := .opened }) with night := .day, nightDelay := none })) ∧
    ((s.pos p).state = .opened ∨ (s.pos p).state = .withdrawn → (∀ l, s.loop p l = .idle) →
      exec (.closeKey p a) s = .next (State.finishOffers
        (let t := s.updPos p fun q => { q with state := .closed, alerts := [], toneRepeat := none, note := none }
        if ∃ x, x ≠ p ∧ ((s.pos x).state = .opened ∨ (s.pos x).state = .withdrawn) then t
        else { t with night := .nightPending, nightDelay := some (s.tick + s.timing.nightDelay) }))) ∧
    ((s.pos p).state = .opened →
      exec (.withdrawKey p a) s = .next (s.updPos p fun q => { q with state := .withdrawn }).finishOffers) ∧
    ((s.pos p).state = .withdrawn →
      exec (.resumeKey p a) s = .next (s.updPos p fun q => { q with state := .opened }).finishOffers)

/-- Review takes the head off the alert list; its text becomes the display note, with the tag and number of its loop or a blank
line 1; the repeats end with the last sounding entry (R164, R160). The texts of the alert kinds are those of R161, and the contents
of the other notes are those of R159: PARKED and the orbit, EXTENDED or CAMPED and the destination (their form: log 27), and
LOCKED. -/
def Obligations.ReviewShowsTheHeadAlert : Prop :=
  (∀ (s : State) (p : Pos) (a : KeyArgs) (x : Alert) (rest : List Alert), (s.pos p).keys = [] → a.loop = 0 → a.count = 0 →
    ((s.pos p).state = .opened ∨ (s.pos p).state = .withdrawn) → (s.pos p).alerts = x :: rest →
    exec (.reviewKey p a) s = .next (s.updPos p fun q => { q with
      alerts := rest
      note := some ⟨
        (match x.loop with
        | some l => s.tagLine (s.loop p l).slot? l
        | none => List.replicate 20 0x20),
        chars (match x.kind with
          | .offer => "OFFER"
          | .holdRecall => "HOLD RECALL"
          | .destBusy => "DEST BUSY"
          | .destUnobtainable => "UNOBTAINABLE"
          | .destAnswered => "DEST ANSWERED"
          | .orderFailed => "ORDER FAILED"
          | .lockout => "LOCKOUT"
          | .callerGone => "CALLER GONE"
          | .queueThreshold => "QUEUE THRESHOLD"
          | .autoWithdrawn => "AUTO WITHDRAWN"
          | .exchangeDown => "EXCHANGE DOWN")⟩
      toneRepeat :=
        if (∃ y ∈ x :: rest, q.toneMask.getLsbD y.kind.bit = true) ∧ ∀ y ∈ rest, q.toneMask.getLsbD y.kind.bit = false
        then none else q.toneRepeat }).finishOffers) ∧
  (∀ o : OrbitNo, parkedText o = chars "PARKED " ++ [BitVec.ofNat 8 (48 + o.val / 10), BitVec.ofNat 8 (48 + o.val % 10)]) ∧
  (∀ ext : Digits, extendedText ext = chars "EXTENDED " ++ numeral ext ∧ campedText ext = chars "CAMPED " ++ numeral ext) ∧
  lockedText = chars "LOCKED" ∧ AlertKind.text .callerGone = chars "CALLER GONE"

/-- A claim that is granted at once: Answer Next claims the highest-ranked eligible call for the lowest IDLE loop, Loop at an
ALERTING loop claims its call, and Pickup claims the call parked in an orbit for the lowest IDLE loop; the claim is GRANTED, an
offer mark of that loop and its OFFER timer go, CONNECT is issued, the loop is CONNECTING, its OFFER entry leaves the alert list
and the note is dropped (R57, R76, R77, R19, R20, R163, R159). A Pickup of a call with an order in flight waits: the claim is
WAITING, the loop is CONNECTING and no order is issued; of two claims on one call the second is too late and gives the error tone
with no change to the call (R19, R21). -/
def Obligations.AnswerAndPickupClaimTheCall : Prop :=
  (∀ (s : State) (p : Pos) (a : KeyArgs) (l : LoopNo) (i : Slot) (r : Record),
    ((s.pos p).state = .opened ∨ (s.pos p).state = .withdrawn) → (s.pos p).keys = [] → s.voiceFree p = true →
    s.settled i r → r.claim = none →
    let granted := fun (r' : Record) (u : State) =>
      s.workAt u p l (.connecting i) (s.viewWithoutKind p l .offer (s.view p)) none [] ∧
      u = { s with
        slots := s.slots.set i (.live r'), orders := s.orders ++ [Entry.fresh i r (.connect p l) .none]
        positions := u.positions }
    (a.loop = 0 → a.count = 0 → s.loop p l = .idle → (∀ m < l, s.loop p m ≠ .idle) → (∀ m j, s.loop p m ≠ .alerting j) →
      s.bestOf (s.queue.filter fun j => s.eligible p j) = some i →
      ∃ u : State, exec (.answerNextKey p a) s = .next u.finishOffers ∧
        granted { r with claim := some ⟨p, l, true⟩ } u) ∧
    (a.loop.toNat = l.val + 1 → a.count = 0 → s.loop p l = .alerting i → r.loc = .queued → r.mark = some (p, l) →
      ∃ u : State, exec (.loopKey p a) s = .next u.finishOffers ∧
        granted { r with claim := some ⟨p, l, true⟩, mark := none, timer := none, held := none } u) ∧
    ∀ o, a.loop = 0 → orbitOf a = some o → s.orbit o = .occupied i → r.loc = .parked o → r.mark = none →
      s.loop p l = .idle → (∀ m < l, s.loop p m ≠ .idle) →
      ∃ u : State, exec (.pickupKey p a) s = .next u.finishOffers ∧
        granted { r with claim := some ⟨p, l, true⟩ } u) ∧
  ∀ (s : State) (p : Pos) (a : KeyArgs) (l : LoopNo) (o : OrbitNo) (i : Slot) (r : Record),
    ((s.pos p).state = .opened ∨ (s.pos p).state = .withdrawn) → (s.pos p).keys = [] → s.voiceFree p = true →
    s.slot i = .live r → (∃ e ∈ s.orders, e.slot = i) → a.loop = 0 → orbitOf a = some o →
    s.orbit o = .occupied i ∨ s.orbit o = .reserved i → s.loop p l = .idle → (∀ m < l, s.loop p m ≠ .idle) →
    (r.claim = none →
      ∃ u : State, exec (.pickupKey p a) s = .next u.finishOffers ∧
        s.workAt u p l (.connecting i) (s.viewWithoutKind p l .offer (s.view p)) none [] ∧
        u = { s with
          slots := s.slots.set i (.live { r with claim := some ⟨p, l, false⟩ }), positions := u.positions }) ∧
    (r.claim ≠ none → exec (.pickupKey p a) s = .next (s.errored p).finishOffers)

/-- Keys that issue an order for the call on a loop and change nothing else: Hold HOLD from TALK; Release RELEASE from TALK, HELD
and RECALLING; Clear RELEASE from LOCKED; Loop, with the voice path free, CONNECT from HELD and RECALLING (R79, R80, R82, R77). -/
def Obligations.LoopKeysIssueTheirOrder : Prop :=
  ∀ (s : State) (p : Pos) (a : KeyArgs) (l : LoopNo) (i : Slot) (r : Record), s.keyAt p a l → a.count = 0 → s.settled i r →
    let issues := fun (c : Instr) (o : Order) =>
      exec c s = .next (State.finishOffers { s with orders := s.orders ++ [Entry.fresh i r o .none] })
    (s.loop p l = .talk i → issues (.holdKey p a) .hold) ∧
    (s.loop p l = .talk i ∨ s.loop p l = .held i ∨ s.loop p l = .recalling i → issues (.releaseKey p a) .release) ∧
    (s.loop p l = .locked i → issues (.clearKey p a) .release) ∧
    (s.loop p l = .held i ∨ s.loop p l = .recalling i → s.voiceFree p = true → issues (.loopKey p a) (.connect p l))

/-- Park takes the named orbit if it is EMPTY, or with no argument the lowest EMPTY one. From TALK the orbit is RESERVED and HOLD is
issued; from HELD the call is PARKED at once, with PARK_RECALL from now, the position its owner, the loop IDLE and the PARKED
note (R81, R112, R111, R159). -/
def Obligations.ParkTakesAnOrbit : Prop :=
  ∀ (s : State) (p : Pos) (a : KeyArgs) (l : LoopNo) (o : OrbitNo) (i : Slot) (r : Record), s.keyAt p a l → s.settled i r →
    s.orbit o = .empty → (a.count = 0 ∧ (∀ x < o, s.orbit x ≠ .empty)) ∨ orbitOf a = some o →
    (s.loop p l = .talk i →
      exec (.parkKey p a) s = .next (State.finishOffers { s with
        orbits := s.orbits.set o (.reserved i), orders := s.orders ++ [Entry.fresh i r .hold .none] })) ∧
    (s.loop p l = .held i → r.loc = .loop p l →
      ∃ u : State, exec (.parkKey p a) s = .next u.finishOffers ∧
        s.workAt u p l .idle (s.viewWithout p l (s.view p)) (some ⟨s.tagLine (some i) l, parkedText o⟩) [] ∧
        u = { s with
          slots := s.slots.set i (.live { r with
            loc := .parked o, owner := some p, held := none
            timer := some ⟨.parkRecall, s.tick + s.timing.parkRecall, false⟩ })
          orbits := s.orbits.set o (.occupied i), positions := u.positions })

/-- Extend from TALK with 2 to 6 digits makes the loop EXTEND, gives step 1 and the destination and issues SPLIT. At an EXTEND
loop: Release at step 3 issues an unscreened and at step 5 a screened TRANSFER, and Cancel at step 3 or 5 a DROP_DEST, all with
step 6; Cancel at step 4 issues the return CONNECT with step 6; Camp at step 4, with room for the destination as R101 counts it,
issues CAMP with step 6 (R93, R98, R99, R100, R101, R103). -/
def Obligations.ExtendKeysStepTheSequence : Prop :=
  ∀ (s : State) (p : Pos) (a : KeyArgs) (l : LoopNo) (i : Slot) (r : Record), s.keyAt p a l → s.settled i r →
    (∀ (ext : Digits) (pad : List Byte), s.loop p l = .talk i → 2 ≤ ext.length → ext.length ≤ 6 →
      a.count = BitVec.ofNat 8 ext.length → a.digits = ext.map (fun d : Fin 10 => BitVec.ofNat 8 d.val) ++ pad →
      ∃ u : State, exec (.extendKey p a) s = .next u.finishOffers ∧
        s.workAt u p l (.extend i) (s.view p) (s.pos p).note [] ∧
        u = { s with
          slots := s.slots.set i (.live { r with step := 1, dest := some ext })
          orders := s.orders ++ [Entry.fresh i r .split .none], positions := u.positions }) ∧
    (s.loop p l = .extend i → a.count = 0 →
      let issues := fun (c : Instr) (o : Order) (m : Mark) =>
        exec c s = .next (State.finishOffers { s with
          slots := s.slots.set i (.live { r with step := 6 }), orders := s.orders ++ [Entry.fresh i r o m] })
      (r.step = 3 → issues (.releaseKey p a) .transfer .unscreened) ∧
      (r.step = 5 → issues (.releaseKey p a) .transfer .screened) ∧
      (r.step = 3 ∨ r.step = 5 → issues (.cancelKey p a) .dropDest .none) ∧
      (r.step = 4 → issues (.cancelKey p a) (.connect p l) .none) ∧
      ∀ ext, r.step = 4 → r.dest = some ext → s.hasRoom ext → issues (.campKey p a) (.camp ext) .none)

/-! ### Carrier (chapter 4.7 and chapter 9) -/

/-- A carrier loss at a position that is not FAULTED, in a state whose holders, queue and order list are sound, fails it: its
carrier is LOST, it is FAULTED with every loop IDLE, an empty key buffer, an empty alert list, no note and no tone repeat; the
night state follows R62; at the other positions a QUEUE_THRESHOLD entry may come up as calls join the queue (R46) and all else
stays, and so does every record no loop of the position refers to; the calls queued before keep their order, those the rescue
queues join the tail, and the rescue orders join the order list, in loop order L1 to L6 (R69, R85, R62, R43). Each of its calls
is rescued by its loop (R86, R88): ALERTING, the mark goes and AGING is armed with the steps kept; CONNECTING, a WAITING claim
goes, and a GRANTED one takes the record out of its queue place or orbit into the rescue set; with an order in flight every
other loop's call enters the rescue set with its order, its caller condition, its reserved orbit and a final mark for the
RELEASE of a LOCKED loop (the condition of a LOCKED loop: log 17), a WAITING claim staying on it (R90); with none, a TALK call
gets a rescue HOLD, a HELD or RECALLING call and an EXTEND call at step 4 go to the queue as RECALL(POSITION_LOST) with no
owner, an EXTEND call at step 3 or 5 gets the TRANSFER of its step, and a LOCKED call a final RELEASE. With a FAULTED position
only the carrier changes. A carrier return at an equipped position takes its console to show the start-up picture and queues
all eleven items in order, each to be sent whatever it shows (log 13), and a FAULTED position becomes CLOSED (R69, R155, R156).
With the carrier already so nothing happens (R155). -/
def Obligations.CarrierLossAndReturn : Prop :=
  (∀ (s : State) (p : Pos), s.ordersOk → s.queueOk → s.holdersOk → (s.pos p).carrier = true → (s.pos p).state ≠ .absent →
    (s.pos p).state ≠ .faulted →
    ∃ u : State, exec (.carrierLoss p) s = .next u.finishOffers ∧
      (u.pos p).state = .faulted ∧ (u.pos p).carrier = false ∧ (u.pos p).keys = [] ∧ (u.pos p).alerts = [] ∧
      (u.pos p).note = none ∧ (u.pos p).toneRepeat = none ∧ (∀ l, u.loop p l = .idle) ∧ (u.pos p).txq = (s.pos p).txq ∧
      (s.pos p).sameSettings { u.pos p with
        state := (s.pos p).state, keys := (s.pos p).keys, carrier := (s.pos p).carrier } ∧
      (∀ q, q ≠ p →
        (s.rescueReaches p q → (∀ a ∈ (s.pos q).alerts, a.kind ≠ .queueThreshold) → s.thresholdRaised u q) ∧
        (¬ s.rescueReaches p q ∨ (∃ a ∈ (s.pos q).alerts, a.kind = .queueThreshold) → u.pos q = s.pos q)) ∧
      (u.night, u.nightDelay) =
        (if ((s.pos p).state = .opened ∨ (s.pos p).state = .withdrawn) ∧
            ∀ q, q ≠ p → (s.pos q).state ≠ .opened ∧ (s.pos q).state ≠ .withdrawn
        then (.nightPending, some (s.tick + s.timing.nightDelay)) else (s.night, s.nightDelay)) ∧
      s.sameSession u ∧ u.window = s.window ∧ u.xout = s.xout ∧ u.camp = s.camp ∧ u.pointer = s.pointer ∧
      u.orders = s.orders ++ (List.finRange 6).flatMap (fun l => s.rescueEntries u p l) ∧
      u.queue = s.rescueQueue p (List.finRange 6) ∧
      (∀ i, (∀ l, (s.loop p l).slot? ≠ some i) → u.slot i = s.slot i) ∧
      (∀ o, u.orbit o = s.orbit o ∨ (u.orbit o = .empty ∧ ∃ i l, s.orbit o = .occupied i ∧ s.loop p l = .connecting i)) ∧
      ∀ (i : Slot) (r : Record) (l : LoopNo), s.slot i = .live r → (s.loop p l).slot? = some i →
        let flying := ∃ e ∈ s.orders, e.slot = i
        let toQueue := i ∈ u.queue ∧ u.slot i = .live (s.recalled r .positionLost none)
        let rescued := fun (r' : Record) (c : CallerCondition) (orbit : Option OrbitNo) (final : Bool) =>
          i ∉ u.queue ∧ u.slot i = .live { r' with loc := .rescue ⟨p, c, orbit, final⟩, timer := none, held := none }
        let issued := fun (o : Order) (m : Mark) => Entry.fresh i r o m ∈ u.orders
        match s.loop p l with
        | .idle => False
        | .alerting _ =>
          i ∈ u.queue ∧ u.slot i = .live { r with mark := none, timer := s.agingTimer r, held := none }
        | .connecting _ =>
          ∃ c, r.claim = some c ∧ (c.granted = false → u.slot i = .live { r with claim := none }) ∧
            (c.granted = true → rescued { r with claim := none } .split none false ∧
              ∀ o, r.loc = .parked o → u.orbit o = .empty)
        | .talk _ =>
          (flying → ∃ orbit, (∀ o, orbit = some o ↔ s.orbit o = .reserved i) ∧ rescued r .connected orbit false) ∧
          (¬ flying → rescued r .connected none false ∧ issued .hold .none)
        | .held _ | .recalling _ => (flying → rescued r .split none false) ∧ (¬ flying → toQueue)
        | .extend _ =>
          (flying → rescued r .split none false) ∧
          (¬ flying → r.step = 3 → rescued { r with step := 6 } .split none false ∧ issued .transfer .unscreened) ∧
          (¬ flying → r.step = 4 → toQueue) ∧
          (¬ flying → r.step = 5 → rescued { r with step := 6 } .split none false ∧ issued .transfer .screened)
        | .locked _ =>
          (∀ e ∈ s.orders, e.slot = i → rescued r .connected none (e.order == .release)) ∧
          (¬ flying → rescued r .connected none true ∧ issued .release .none)) ∧
  (∀ (s : State) (p : Pos), (s.pos p).carrier = false ∨ (s.pos p).state = .absent → exec (.carrierLoss p) s = .next s) ∧
  (∀ (s : State) (p : Pos), (s.pos p).carrier = true → (s.pos p).state = .faulted →
    exec (.carrierLoss p) s = .next (s.updPos p fun q => { q with carrier := false }).finishOffers) ∧
  ∀ (s : State) (p : Pos),
    ((s.pos p).carrier = false → (s.pos p).state ≠ .absent →
      exec (.carrierReturn p) s = .next (s.updPos p fun q => { q with
        carrier := true, state := if q.state = .faulted then .closed else q.state, sent := Picture.startup
        txq := [.item (.lamp 0) true, .item (.lamp 1) true, .item (.lamp 2) true, .item (.lamp 3) true,
          .item (.lamp 4) true, .item (.lamp 5) true, .item (.lamp 6) true, .item (.lamp 7) true,
          .item (.lamp 8) true, .item (.line 0) true, .item (.line 1) true] }).finishOffers) ∧
    ((s.pos p).carrier = true ∨ (s.pos p).state = .absent → exec (.carrierReturn p) s = .next s)

/-! ### Pictures (chapter 9) -/

/-- The wanted picture of an equipped position. Lamps: each loop lamp by the state of its loop, the OPEN lamp by the position's
state, the ALERT lamp by its alert list, and the NIGHT lamp by the night state (R157). Display: both lines blank at a position
that is not staffed; at a staffed one the loop that holds the voice path, otherwise the ALERTING loop, otherwise the note,
otherwise nothing, with the tag and loop number in line 1, and in line 2 the caller digits, the text of an offered recall or the
destination and step text of R106, and behind it Q and the queued calls of the tenants in the mask, right-aligned in three
places (R158). -/
def Obligations.LampsAndDisplayFollowTheState : Prop :=
  ∀ (s : State) (p : Pos), (s.pos p).state ≠ .absent →
    (∀ l : LoopNo, s.wantedLamp p ⟨l.val, by omega⟩ =
      match s.loop p l with
      | .idle => .off
      | .alerting _ => .slow
      | .connecting _ | .talk _ | .extend _ => .steady
      | .held _ => .wink
      | .recalling _ => .fast
      | .locked _ => .flicker) ∧
    s.wantedLamp p 6 =
      (match (s.pos p).state with
      | .opened => .steady
      | .withdrawn => .wink
      | _ => .off) ∧
    s.wantedLamp p 7 = (if (s.pos p).alerts = [] then .off else .steady) ∧
    s.wantedLamp p 8 = (if s.night = .night then .steady else .off) ∧
    ((s.pos p).state ≠ .opened → (s.pos p).state ≠ .withdrawn → ∀ j, s.wantedLine p j = List.replicate 20 0x20) ∧
    ((s.pos p).state = .opened ∨ (s.pos p).state = .withdrawn →
      let voice := fun l => s.holdsVoice p l = true
      let ringing := fun l => ∃ i, s.loop p l = .alerting i
      let queued := (((List.finRange 16).filter fun x => (s.pos p).tenantMask.getLsbD x.val).map fun x =>
        (s.queue.filter fun i => s.tenantOf i == some x).length).sum
      let shows := fun (line1 content : List Byte) =>
        s.wantedLine p 0 = line1 ∧
        s.wantedLine p 1 = (content ++ List.replicate 16 0x20).take 16 ++ 0x51 ::
          (if queued < 10 then [0x20, 0x20, BitVec.ofNat 8 (48 + queued)]
          else if queued < 100 then [0x20, BitVec.ofNat 8 (48 + queued / 10), BitVec.ofNat 8 (48 + queued % 10)]
          else [BitVec.ofNat 8 (48 + queued / 100 % 10), BitVec.ofNat 8 (48 + queued / 10 % 10),
            BitVec.ofNat 8 (48 + queued % 10)])
      (∀ (l : LoopNo) (i : Slot) (r : Record), s.slot i = .live r → (s.loop p l).slot? = some i →
        (voice l ∧ ∀ m, voice m → m = l) ∨ ((∀ m, ¬ voice m) ∧ ringing l ∧ ∀ m, ringing m → m = l) →
        (s.tenant r.tenant).tag.length = 16 →
        shows ((s.tenant r.tenant).tag ++ [0x20, 0x4C, BitVec.ofNat 8 (49 + l.val), 0x20])
          (match s.loop p l, r.kind with
          | .alerting _, .recall why => chars (
            match why with
            | .hold => "RECALL HOLD"
            | .park => "RECALL PARK"
            | .camp => "RECALL CAMP"
            | .noAnswer => "RECALL NO ANSWER"
            | .positionLost => "RECALL POS LOST")
          | .extend _, _ => numeral (r.dest.getD []) ++ 0x20 :: chars (
            if r.step = 1 then "SPLIT"
            else if r.step = 2 then "CALLING"
            else if r.step = 3 then "RINGING"
            else if r.step = 4 then "BUSY"
            else if r.step = 5 then "ANSWERED"
            else
              match (s.entry? i).map Entry.order with
              | some .transfer => "TRANSFER"
              | some (.camp _) => "CAMPING"
              | some .dropDest => "CANCEL"
              | some (.connect _ _) => "RETURNING"
              | _ => "")
          | _, _ => numeral r.digits)) ∧
      ((∀ l, ¬ voice l ∧ ¬ ringing l) →
        (∀ n, (s.pos p).note = some n → shows ((n.line1 ++ List.replicate 20 0x20).take 20) n.content) ∧
        ((s.pos p).note = none → shows (List.replicate 20 0x20) [])))
end

