-- ==== Sys2Proof/Laws/State.lean ====
section
/-! SUPPORT. The small lemmas of the state's accessors and updates: one per view and update, for simp. -/

namespace Sys2Proof.Machine

section
variable (s : State) (i j : Slot) (p q : Pos) (l : LoopNo)

/-! ### Slots -/

theorem slot_setSlot (x : SlotState) : (s.setSlot i x).slot j = if i = j then x else s.slot j := by
  simp only [State.setSlot, State.slot]
  by_cases h : i = j
  · subst h; simp
  · have : i.val ≠ j.val := fun h' => h (Fin.ext h')
    simp [h, Fin.getElem_fin, this]

@[simp] theorem slot_setSlot_self (x : SlotState) : (s.setSlot i x).slot i = x := by simp [slot_setSlot]

theorem slot_setSlot_ne (x : SlotState) (h : i ≠ j) : (s.setSlot i x).slot j = s.slot j := by
  simp [slot_setSlot, h]

theorem record?_eq_some {r : Record} : s.record? i = some r ↔ s.slot i = .live r := by
  unfold State.record?
  split <;> simp_all

theorem record?_eq_none : s.record? i = none ↔ ∀ r, s.slot i ≠ .live r := by
  unfold State.record?
  split <;> simp_all

theorem updRec_live {r : Record} (h : s.record? i = some r) (f : Record → Record) :
    s.updRec i f = s.setSlot i (.live (f r)) := by
  have h' := (record?_eq_some s i).1 h
  simp [State.updRec, h']

theorem updRec_none (h : s.record? i = none) (f : Record → Record) : s.updRec i f = s := by
  have h' := (record?_eq_none s i).1 h
  unfold State.updRec
  split
  · next r hr => exact absurd hr (h' r)
  · rfl

theorem slot_updRec (f : Record → Record) :
    (s.updRec i f).slot j = if i = j then (match s.slot i with | .live r => .live (f r) | x => x) else s.slot j := by
  unfold State.updRec
  by_cases hij : i = j
  · subst hij
    cases h : s.slot i <;> simp [h]
  · cases h : s.slot i <;> simp [slot_setSlot, hij]

theorem slot_updRec_ne (f : Record → Record) (h : i ≠ j) : (s.updRec i f).slot j = s.slot j := by
  simp [slot_updRec, h]

theorem record?_updRec (f : Record → Record) :
    (s.updRec i f).record? j = if i = j then (s.record? i).map f else s.record? j := by
  by_cases h : i = j
  · subst h
    simp only [State.record?, slot_updRec, if_true]
    cases s.slot i <;> rfl
  · simp [State.record?, slot_updRec, h]

@[simp] theorem record?_updRec_self (f : Record → Record) : (s.updRec i f).record? i = (s.record? i).map f := by
  simp [record?_updRec]

/-- A record change touches the slots alone. -/
theorem updRec_frame (f : Record → Record) : s.updRec i f = { s with slots := (s.updRec i f).slots } := by
  unfold State.updRec
  split <;> rfl

/-! ### Positions and loops -/

theorem pos_updPos (f : Position → Position) : (s.updPos p f).pos q = if p = q then f (s.pos p) else s.pos q := by
  simp only [State.updPos, State.pos]
  by_cases h : p = q
  · subst h; simp
  · have : p.val ≠ q.val := fun h' => h (Fin.ext h')
    simp [h, Fin.getElem_fin, this]

@[simp] theorem pos_updPos_self (f : Position → Position) : (s.updPos p f).pos p = f (s.pos p) := by simp [pos_updPos]

theorem pos_updPos_ne (f : Position → Position) (h : p ≠ q) : (s.updPos p f).pos q = s.pos q := by
  simp [pos_updPos, h]

theorem updPos_updPos (f g : Position → Position) : (s.updPos p f).updPos p g = s.updPos p (fun x => g (f x)) := by
  simp only [State.updPos, State.pos]
  congr 1
  simp [Fin.getElem_fin, Vector.set_set]

theorem updPos_self (f : Position → Position) (h : f (s.pos p) = s.pos p) : s.updPos p f = s := by
  simp only [State.updPos, State.pos] at h ⊢
  rw [h]
  simp [Fin.getElem_fin]

/-- A position change touches the positions alone. -/
theorem updPos_frame (f : Position → Position) : s.updPos p f = { s with positions := (s.updPos p f).positions } := rfl

theorem loops_setLoop (x : LoopState) (y : Position) (m : LoopNo) :
    (y.setLoop l x).loops[m] = if l = m then x else y.loops[m] := by
  simp only [Position.setLoop]
  by_cases h : l = m
  · subst h; simp
  · have : l.val ≠ m.val := fun h' => h (Fin.ext h')
    simp [h, Fin.getElem_fin, this]

/-! ### Orbits -/

theorem orbit_setOrbit (o u : OrbitNo) (x : Orbit) :
    (s.setOrbit o x).orbit u = if o = u then x else s.orbit u := by
  simp only [State.setOrbit, State.orbit]
  by_cases h : o = u
  · subst h; simp
  · have : o.val ≠ u.val := fun h' => h (Fin.ext h')
    simp [h, Fin.getElem_fin, this]

end

/-! ### One lemma per field and update -/

section
variable (s : State) (i : Slot) (p : Pos) (o : OrbitNo) (x : SlotState) (y : Orbit) (f : Record → Record)
  (g : Position → Position) (m : XMsg) (h : Entry → Entry)

@[simp] theorem setSlot_pending : (s.setSlot i x).pending = s.pending := rfl
@[simp] theorem setSlot_tick : (s.setSlot i x).tick = s.tick := rfl
@[simp] theorem setSlot_nightDelay : (s.setSlot i x).nightDelay = s.nightDelay := rfl
@[simp] theorem setSlot_queue : (s.setSlot i x).queue = s.queue := rfl
@[simp] theorem setSlot_pointer : (s.setSlot i x).pointer = s.pointer := rfl
@[simp] theorem setSlot_night : (s.setSlot i x).night = s.night := rfl
@[simp] theorem setSlot_orbits : (s.setSlot i x).orbits = s.orbits := rfl
@[simp] theorem setSlot_camp : (s.setSlot i x).camp = s.camp := rfl
@[simp] theorem setSlot_orders : (s.setSlot i x).orders = s.orders := rfl
@[simp] theorem setSlot_window : (s.setSlot i x).window = s.window := rfl
@[simp] theorem setSlot_paused : (s.setSlot i x).paused = s.paused := rfl
@[simp] theorem setSlot_link : (s.setSlot i x).link = s.link := rfl
@[simp] theorem setSlot_tenants : (s.setSlot i x).tenants = s.tenants := rfl
@[simp] theorem setSlot_timing : (s.setSlot i x).timing = s.timing := rfl
@[simp] theorem setSlot_positions : (s.setSlot i x).positions = s.positions := rfl
@[simp] theorem setSlot_poseq : (s.setSlot i x).poseq = s.poseq := rfl
@[simp] theorem setSlot_xrate : (s.setSlot i x).xrate = s.xrate := rfl
@[simp] theorem setSlot_xrx : (s.setSlot i x).xrx = s.xrx := rfl
@[simp] theorem setSlot_xline : (s.setSlot i x).xline = s.xline := rfl
@[simp] theorem setSlot_xout : (s.setSlot i x).xout = s.xout := rfl
@[simp] theorem updRec_pending : (s.updRec i f).pending = s.pending := by rw [updRec_frame]
@[simp] theorem updRec_tick : (s.updRec i f).tick = s.tick := by rw [updRec_frame]
@[simp] theorem updRec_nightDelay : (s.updRec i f).nightDelay = s.nightDelay := by rw [updRec_frame]
@[simp] theorem updRec_queue : (s.updRec i f).queue = s.queue := by rw [updRec_frame]
@[simp] theorem updRec_pointer : (s.updRec i f).pointer = s.pointer := by rw [updRec_frame]
@[simp] theorem updRec_night : (s.updRec i f).night = s.night := by rw [updRec_frame]
@[simp] theorem updRec_orbits : (s.updRec i f).orbits = s.orbits := by rw [updRec_frame]
@[simp] theorem updRec_camp : (s.updRec i f).camp = s.camp := by rw [updRec_frame]
@[simp] theorem updRec_orders : (s.updRec i f).orders = s.orders := by rw [updRec_frame]
@[simp] theorem updRec_window : (s.updRec i f).window = s.window := by rw [updRec_frame]
@[simp] theorem updRec_paused : (s.updRec i f).paused = s.paused := by rw [updRec_frame]
@[simp] theorem updRec_link : (s.updRec i f).link = s.link := by rw [updRec_frame]
@[simp] theorem updRec_tenants : (s.updRec i f).tenants = s.tenants := by rw [updRec_frame]
@[simp] theorem updRec_timing : (s.updRec i f).timing = s.timing := by rw [updRec_frame]
@[simp] theorem updRec_positions : (s.updRec i f).positions = s.positions := by rw [updRec_frame]
@[simp] theorem updRec_poseq : (s.updRec i f).poseq = s.poseq := by rw [updRec_frame]
@[simp] theorem updRec_xrate : (s.updRec i f).xrate = s.xrate := by rw [updRec_frame]
@[simp] theorem updRec_xrx : (s.updRec i f).xrx = s.xrx := by rw [updRec_frame]
@[simp] theorem updRec_xline : (s.updRec i f).xline = s.xline := by rw [updRec_frame]
@[simp] theorem updRec_xout : (s.updRec i f).xout = s.xout := by rw [updRec_frame]
@[simp] theorem updPos_pending : (s.updPos p g).pending = s.pending := rfl
@[simp] theorem updPos_tick : (s.updPos p g).tick = s.tick := rfl
@[simp] theorem updPos_nightDelay : (s.updPos p g).nightDelay = s.nightDelay := rfl
@[simp] theorem updPos_slots : (s.updPos p g).slots = s.slots := rfl
@[simp] theorem updPos_queue : (s.updPos p g).queue = s.queue := rfl
@[simp] theorem updPos_pointer : (s.updPos p g).pointer = s.pointer := rfl
@[simp] theorem updPos_night : (s.updPos p g).night = s.night := rfl
@[simp] theorem updPos_orbits : (s.updPos p g).orbits = s.orbits := rfl
@[simp] theorem updPos_camp : (s.updPos p g).camp = s.camp := rfl
@[simp] theorem updPos_orders : (s.updPos p g).orders = s.orders := rfl
@[simp] theorem updPos_window : (s.updPos p g).window = s.window := rfl
@[simp] theorem updPos_paused : (s.updPos p g).paused = s.paused := rfl
@[simp] theorem updPos_link : (s.updPos p g).link = s.link := rfl
@[simp] theorem updPos_tenants : (s.updPos p g).tenants = s.tenants := rfl
@[simp] theorem updPos_timing : (s.updPos p g).timing = s.timing := rfl
@[simp] theorem updPos_poseq : (s.updPos p g).poseq = s.poseq := rfl
@[simp] theorem updPos_xrate : (s.updPos p g).xrate = s.xrate := rfl
@[simp] theorem updPos_xrx : (s.updPos p g).xrx = s.xrx := rfl
@[simp] theorem updPos_xline : (s.updPos p g).xline = s.xline := rfl
@[simp] theorem updPos_xout : (s.updPos p g).xout = s.xout := rfl
@[simp] theorem setOrbit_pending : (s.setOrbit o y).pending = s.pending := rfl
@[simp] theorem setOrbit_tick : (s.setOrbit o y).tick = s.tick := rfl
@[simp] theorem setOrbit_nightDelay : (s.setOrbit o y).nightDelay = s.nightDelay := rfl
@[simp] theorem setOrbit_slots : (s.setOrbit o y).slots = s.slots := rfl
@[simp] theorem setOrbit_queue : (s.setOrbit o y).queue = s.queue := rfl
@[simp] theorem setOrbit_pointer : (s.setOrbit o y).pointer = s.pointer := rfl
@[simp] theorem setOrbit_night : (s.setOrbit o y).night = s.night := rfl
@[simp] theorem setOrbit_camp : (s.setOrbit o y).camp = s.camp := rfl
@[simp] theorem setOrbit_orders : (s.setOrbit o y).orders = s.orders := rfl
@[simp] theorem setOrbit_window : (s.setOrbit o y).window = s.window := rfl
@[simp] theorem setOrbit_paused : (s.setOrbit o y).paused = s.paused := rfl
@[simp] theorem setOrbit_link : (s.setOrbit o y).link = s.link := rfl
@[simp] theorem setOrbit_tenants : (s.setOrbit o y).tenants = s.tenants := rfl
@[simp] theorem setOrbit_timing : (s.setOrbit o y).timing = s.timing := rfl
@[simp] theorem setOrbit_positions : (s.setOrbit o y).positions = s.positions := rfl
@[simp] theorem setOrbit_poseq : (s.setOrbit o y).poseq = s.poseq := rfl
@[simp] theorem setOrbit_xrate : (s.setOrbit o y).xrate = s.xrate := rfl
@[simp] theorem setOrbit_xrx : (s.setOrbit o y).xrx = s.xrx := rfl
@[simp] theorem setOrbit_xline : (s.setOrbit o y).xline = s.xline := rfl
@[simp] theorem setOrbit_xout : (s.setOrbit o y).xout = s.xout := rfl
@[simp] theorem transmit_pending : (s.transmit m).pending = s.pending := rfl
@[simp] theorem transmit_tick : (s.transmit m).tick = s.tick := rfl
@[simp] theorem transmit_nightDelay : (s.transmit m).nightDelay = s.nightDelay := rfl
@[simp] theorem transmit_slots : (s.transmit m).slots = s.slots := rfl
@[simp] theorem transmit_queue : (s.transmit m).queue = s.queue := rfl
@[simp] theorem transmit_pointer : (s.transmit m).pointer = s.pointer := rfl
@[simp] theorem transmit_night : (s.transmit m).night = s.night := rfl
@[simp] theorem transmit_orbits : (s.transmit m).orbits = s.orbits := rfl
@[simp] theorem transmit_camp : (s.transmit m).camp = s.camp := rfl
@[simp] theorem transmit_orders : (s.transmit m).orders = s.orders := rfl
@[simp] theorem transmit_window : (s.transmit m).window = s.window := rfl
@[simp] theorem transmit_paused : (s.transmit m).paused = s.paused := rfl
@[simp] theorem transmit_link : (s.transmit m).link = s.link := rfl
@[simp] theorem transmit_tenants : (s.transmit m).tenants = s.tenants := rfl
@[simp] theorem transmit_timing : (s.transmit m).timing = s.timing := rfl
@[simp] theorem transmit_positions : (s.transmit m).positions = s.positions := rfl
@[simp] theorem transmit_poseq : (s.transmit m).poseq = s.poseq := rfl
@[simp] theorem transmit_xrate : (s.transmit m).xrate = s.xrate := rfl
@[simp] theorem transmit_xrx : (s.transmit m).xrx = s.xrx := rfl
@[simp] theorem transmit_xline : (s.transmit m).xline = s.xline := rfl
@[simp] theorem transmit_xout : (s.transmit m).xout = s.xout ++ [m] := rfl
@[simp] theorem updEntry_pending : (s.updEntry i h).pending = s.pending := rfl
@[simp] theorem updEntry_tick : (s.updEntry i h).tick = s.tick := rfl
@[simp] theorem updEntry_nightDelay : (s.updEntry i h).nightDelay = s.nightDelay := rfl
@[simp] theorem updEntry_slots : (s.updEntry i h).slots = s.slots := rfl
@[simp] theorem updEntry_queue : (s.updEntry i h).queue = s.queue := rfl
@[simp] theorem updEntry_pointer : (s.updEntry i h).pointer = s.pointer := rfl
@[simp] theorem updEntry_night : (s.updEntry i h).night = s.night := rfl
@[simp] theorem updEntry_orbits : (s.updEntry i h).orbits = s.orbits := rfl
@[simp] theorem updEntry_camp : (s.updEntry i h).camp = s.camp := rfl
@[simp] theorem updEntry_window : (s.updEntry i h).window = s.window := rfl
@[simp] theorem updEntry_paused : (s.updEntry i h).paused = s.paused := rfl
@[simp] theorem updEntry_link : (s.updEntry i h).link = s.link := rfl
@[simp] theorem updEntry_tenants : (s.updEntry i h).tenants = s.tenants := rfl
@[simp] theorem updEntry_timing : (s.updEntry i h).timing = s.timing := rfl
@[simp] theorem updEntry_positions : (s.updEntry i h).positions = s.positions := rfl
@[simp] theorem updEntry_poseq : (s.updEntry i h).poseq = s.poseq := rfl
@[simp] theorem updEntry_xrate : (s.updEntry i h).xrate = s.xrate := rfl
@[simp] theorem updEntry_xrx : (s.updEntry i h).xrx = s.xrx := rfl
@[simp] theorem updEntry_xline : (s.updEntry i h).xline = s.xline := rfl
@[simp] theorem updEntry_xout : (s.updEntry i h).xout = s.xout := rfl
@[simp] theorem dropEntry_pending : (s.dropEntry i).pending = s.pending := rfl
@[simp] theorem dropEntry_tick : (s.dropEntry i).tick = s.tick := rfl
@[simp] theorem dropEntry_nightDelay : (s.dropEntry i).nightDelay = s.nightDelay := rfl
@[simp] theorem dropEntry_slots : (s.dropEntry i).slots = s.slots := rfl
@[simp] theorem dropEntry_queue : (s.dropEntry i).queue = s.queue := rfl
@[simp] theorem dropEntry_pointer : (s.dropEntry i).pointer = s.pointer := rfl
@[simp] theorem dropEntry_night : (s.dropEntry i).night = s.night := rfl
@[simp] theorem dropEntry_orbits : (s.dropEntry i).orbits = s.orbits := rfl
@[simp] theorem dropEntry_camp : (s.dropEntry i).camp = s.camp := rfl
@[simp] theorem dropEntry_paused : (s.dropEntry i).paused = s.paused := rfl
@[simp] theorem dropEntry_link : (s.dropEntry i).link = s.link := rfl
@[simp] theorem dropEntry_tenants : (s.dropEntry i).tenants = s.tenants := rfl
@[simp] theorem dropEntry_timing : (s.dropEntry i).timing = s.timing := rfl
@[simp] theorem dropEntry_positions : (s.dropEntry i).positions = s.positions := rfl
@[simp] theorem dropEntry_poseq : (s.dropEntry i).poseq = s.poseq := rfl
@[simp] theorem dropEntry_xrate : (s.dropEntry i).xrate = s.xrate := rfl
@[simp] theorem dropEntry_xrx : (s.dropEntry i).xrx = s.xrx := rfl
@[simp] theorem dropEntry_xline : (s.dropEntry i).xline = s.xline := rfl
@[simp] theorem dropEntry_xout : (s.dropEntry i).xout = s.xout := rfl
@[simp] theorem setSlot_pos (q : Pos) : (s.setSlot i x).pos q = s.pos q := rfl
@[simp] theorem setSlot_loop (q : Pos) (l : LoopNo) : (s.setSlot i x).loop q l = s.loop q l := rfl
@[simp] theorem updRec_pos (q : Pos) : (s.updRec i f).pos q = s.pos q := by rw [updRec_frame]; rfl
@[simp] theorem updRec_loop (q : Pos) (l : LoopNo) : (s.updRec i f).loop q l = s.loop q l := by rw [updRec_frame]; rfl
@[simp] theorem setOrbit_pos (q : Pos) : (s.setOrbit o y).pos q = s.pos q := rfl
@[simp] theorem setOrbit_loop (q : Pos) (l : LoopNo) : (s.setOrbit o y).loop q l = s.loop q l := rfl
@[simp] theorem transmit_pos (q : Pos) : (s.transmit m).pos q = s.pos q := rfl
@[simp] theorem transmit_loop (q : Pos) (l : LoopNo) : (s.transmit m).loop q l = s.loop q l := rfl
@[simp] theorem updEntry_pos (q : Pos) : (s.updEntry i h).pos q = s.pos q := rfl
@[simp] theorem updEntry_loop (q : Pos) (l : LoopNo) : (s.updEntry i h).loop q l = s.loop q l := rfl
@[simp] theorem dropEntry_pos (q : Pos) : (s.dropEntry i).pos q = s.pos q := rfl
@[simp] theorem dropEntry_loop (q : Pos) (l : LoopNo) : (s.dropEntry i).loop q l = s.loop q l := rfl
@[simp] theorem updPos_slot (j : Slot) : (s.updPos p g).slot j = s.slot j := rfl
@[simp] theorem updPos_record? (j : Slot) : (s.updPos p g).record? j = s.record? j := rfl
@[simp] theorem setOrbit_slot (j : Slot) : (s.setOrbit o y).slot j = s.slot j := rfl
@[simp] theorem setOrbit_record? (j : Slot) : (s.setOrbit o y).record? j = s.record? j := rfl
@[simp] theorem transmit_slot (j : Slot) : (s.transmit m).slot j = s.slot j := rfl
@[simp] theorem transmit_record? (j : Slot) : (s.transmit m).record? j = s.record? j := rfl
@[simp] theorem updEntry_slot (j : Slot) : (s.updEntry i h).slot j = s.slot j := rfl
@[simp] theorem updEntry_record? (j : Slot) : (s.updEntry i h).record? j = s.record? j := rfl
@[simp] theorem dropEntry_slot (j : Slot) : (s.dropEntry i).slot j = s.slot j := rfl
@[simp] theorem dropEntry_record? (j : Slot) : (s.dropEntry i).record? j = s.record? j := rfl
@[simp] theorem setSlot_inFlight (j : Slot) : (s.setSlot i x).inFlight j = s.inFlight j := rfl
@[simp] theorem setSlot_entry? (j : Slot) : (s.setSlot i x).entry? j = s.entry? j := rfl
@[simp] theorem updRec_inFlight (j : Slot) : (s.updRec i f).inFlight j = s.inFlight j := by rw [updRec_frame]; rfl
@[simp] theorem updRec_entry? (j : Slot) : (s.updRec i f).entry? j = s.entry? j := by rw [updRec_frame]; rfl
@[simp] theorem updPos_inFlight (j : Slot) : (s.updPos p g).inFlight j = s.inFlight j := rfl
@[simp] theorem updPos_entry? (j : Slot) : (s.updPos p g).entry? j = s.entry? j := rfl
@[simp] theorem setOrbit_inFlight (j : Slot) : (s.setOrbit o y).inFlight j = s.inFlight j := rfl
@[simp] theorem setOrbit_entry? (j : Slot) : (s.setOrbit o y).entry? j = s.entry? j := rfl
@[simp] theorem transmit_inFlight (j : Slot) : (s.transmit m).inFlight j = s.inFlight j := rfl
@[simp] theorem transmit_entry? (j : Slot) : (s.transmit m).entry? j = s.entry? j := rfl
@[simp] theorem setSlot_orbit (u : OrbitNo) : (s.setSlot i x).orbit u = s.orbit u := rfl
@[simp] theorem updRec_orbit (u : OrbitNo) : (s.updRec i f).orbit u = s.orbit u := by rw [updRec_frame]; rfl
@[simp] theorem updPos_orbit (u : OrbitNo) : (s.updPos p g).orbit u = s.orbit u := rfl
@[simp] theorem transmit_orbit (u : OrbitNo) : (s.transmit m).orbit u = s.orbit u := rfl
@[simp] theorem updEntry_orbit (u : OrbitNo) : (s.updEntry i h).orbit u = s.orbit u := rfl
@[simp] theorem dropEntry_orbit (u : OrbitNo) : (s.dropEntry i).orbit u = s.orbit u := rfl
@[simp] theorem setSlot_tenant (t : TenantNo) : (s.setSlot i x).tenant t = s.tenant t := rfl
@[simp] theorem updRec_tenant (t : TenantNo) : (s.updRec i f).tenant t = s.tenant t := by rw [updRec_frame]; rfl
@[simp] theorem updPos_tenant (t : TenantNo) : (s.updPos p g).tenant t = s.tenant t := rfl
@[simp] theorem setOrbit_tenant (t : TenantNo) : (s.setOrbit o y).tenant t = s.tenant t := rfl
@[simp] theorem transmit_tenant (t : TenantNo) : (s.transmit m).tenant t = s.tenant t := rfl
@[simp] theorem updEntry_tenant (t : TenantNo) : (s.updEntry i h).tenant t = s.tenant t := rfl
@[simp] theorem dropEntry_tenant (t : TenantNo) : (s.dropEntry i).tenant t = s.tenant t := rfl

end

end Sys2Proof.Machine
end

