-- ==== Sys2Proof/Laws/Alerts.lean ====
section
/-! SUPPORT. What sounding, raising and dropping alerts can do (chapter 9). -/

namespace Sys2Proof.Machine

/-- Sounding adds at most the tone, at the tail of the transmit queue (R156). -/
theorem sound_eq (q : Position) (t : Tone) :
    q.sound t = { q with
      txq := q.txq ++ if (q.txq.filter TxEntry.isTone).length < Config.tonePlaces then [.tone t] else [] } := by
  unfold Position.sound
  split <;> simp

/-- Entering an alert touches the transmit queue and the tone repeat deadline alone (R160). -/
theorem soundEntered_frame (q : Position) (now : Tick) (k : AlertKind) :
    q.soundEntered now k = { q with
      toneRepeat := (q.soundEntered now k).toneRepeat, txq := (q.soundEntered now k).txq } := by
  unfold Position.soundEntered
  split
  · rw [sound_eq]
  · rfl

/-- The alert list after a loop-level alert (R162). -/
theorem raiseLoop_alerts (q : Position) (now : Tick) (k : AlertKind) (l : LoopNo) :
    (q.raiseLoop now k l).alerts =
      if q.enters k then (q.alerts.filter fun a => a.loop != some l) ++ [⟨k, some l⟩] else q.alerts := by
  unfold Position.raiseLoop
  split
  · rw [soundEntered_frame]
  · rfl

/-- The alert list after a position-level alert (R162). -/
theorem raiseKind_alerts (q : Position) (now : Tick) (k : AlertKind) :
    (q.raiseKind now k).alerts =
      if q.enters k && !q.alerts.any (fun a => a.kind == k) then q.alerts ++ [⟨k, none⟩] else q.alerts := by
  unfold Position.raiseKind
  split
  · rw [soundEntered_frame]
  · rfl

/-- Raising touches the alert list, the tone repeat deadline and the transmit queue alone. -/
theorem raiseLoop_frame (q : Position) (now : Tick) (k : AlertKind) (l : LoopNo) :
    q.raiseLoop now k l = { q with
      alerts := (q.raiseLoop now k l).alerts, toneRepeat := (q.raiseLoop now k l).toneRepeat
      txq := (q.raiseLoop now k l).txq } := by
  unfold Position.raiseLoop
  split
  · rw [soundEntered_frame]
  · rfl

theorem raiseKind_frame (q : Position) (now : Tick) (k : AlertKind) :
    q.raiseKind now k = { q with
      alerts := (q.raiseKind now k).alerts, toneRepeat := (q.raiseKind now k).toneRepeat
      txq := (q.raiseKind now k).txq } := by
  unfold Position.raiseKind
  split
  · rw [soundEntered_frame]
  · rfl

/-- All that entering an alert does (R160): with the kind in the tone mask its tone is sounded and the deadline armed. -/
theorem soundEntered_eq (q : Position) (now : Tick) (k : AlertKind) :
    q.soundEntered now k =
      if inMask q.toneMask k then
        { q with
          toneRepeat := some (now + Config.toneRepeat)
          txq := q.txq ++ if (q.txq.filter TxEntry.isTone).length < Config.tonePlaces then [.tone k.tone] else [] }
      else q := by
  unfold Position.soundEntered
  split
  · rw [sound_eq]
  · rfl

/-- The tone repeat deadline after a loop-level alert (R160): armed from now if the kind is entered and in the tone mask. -/
theorem raiseLoop_toneRepeat (q : Position) (now : Tick) (k : AlertKind) (l : LoopNo) :
    (q.raiseLoop now k l).toneRepeat =
      if q.enters k && inMask q.toneMask k then some (now + Config.toneRepeat) else q.toneRepeat := by
  cases h : q.enters k <;> cases h' : inMask q.toneMask k <;> simp [Position.raiseLoop, soundEntered_eq, h, h']

/-- The tone repeat deadline after entries left the list (R160): disarmed when the last sounding one left. -/
theorem keepAlerts_toneRepeat (q : Position) (keep : Alert → Bool) :
    (q.keepAlerts keep).toneRepeat =
      if q.alerts.any q.sounding && !(q.alerts.filter keep).any q.sounding then none else q.toneRepeat := rfl

/-- An idle loop, and its entry out of the list (R163). -/
theorem loopIdle_alerts (s : State) (p : Pos) (l : LoopNo) :
    ((s.loopIdle p l).pos p).alerts = (s.pos p).alerts.filter fun a => a.loop != some l := by
  simp [State.loopIdle, Position.dropLoopAlert, Position.keepAlerts, Position.setLoop]

theorem loop_updPos_setLoop (s : State) (p : Pos) (l m : LoopNo) (x : LoopState) (f : Position → Position)
    (hf : ∀ q, (f q).loops = q.loops) :
    (s.updPos p fun q => f (q.setLoop l x)).loop p m = if l = m then x else s.loop p m := by
  simp only [State.loop, pos_updPos_self, hf]
  exact loops_setLoop l x (s.pos p) m

theorem loop_loopIdle (s : State) (p : Pos) (l m : LoopNo) :
    (s.loopIdle p l).loop p m = if l = m then .idle else s.loop p m :=
  loop_updPos_setLoop s p l m .idle (fun q => q.dropLoopAlert l) (fun _ => rfl)

theorem loop_setLoop (s : State) (p : Pos) (l m : LoopNo) (x : LoopState) :
    (s.setLoop p l x).loop p m = if l = m then x else s.loop p m :=
  loop_updPos_setLoop s p l m x id (fun _ => rfl)

theorem loop_loopConnecting (s : State) (p : Pos) (l m : LoopNo) (i : Slot) :
    (s.loopConnecting p l i).loop p m = if l = m then .connecting i else s.loop p m :=
  loop_updPos_setLoop s p l m (.connecting i) (fun q => { q.dropKindAt l .offer with note := none }) (fun _ => rfl)

theorem loop_updPos_ne (s : State) {p q : Pos} (h : p ≠ q) (f : Position → Position) (m : LoopNo) :
    (s.updPos p f).loop q m = s.loop q m := by
  simp only [State.loop, pos_updPos_ne s p q f h]

end Sys2Proof.Machine
end

