-- ==== Sys2Proof/Laws/EventEnd.lean ====
section
/-! SUPPORT. What each operation at the end of an event can change: pictures, sending, offers (R156, R127, R50). -/

namespace Sys2Proof.Machine

/-- A reflexive and transitive relation that every step of a fold keeps holds from the fold's start to its end. -/
theorem foldl_related {α σ : Type} {R : σ → σ → Prop} (refl : ∀ s, R s s) (trans : ∀ {s t u}, R s t → R t u → R s u)
    (f : σ → α → σ) (hf : ∀ s a, R s (f s a)) : ∀ (xs : List α) (s : σ), R s (xs.foldl f s)
  | [], s => refl s
  | x :: xs, s => trans (hf s x) (foldl_related refl trans f hf xs (f s x))

/-! ### Pictures -/

/-- Queueing an item touches the transmit queue alone. -/
theorem queueItem_frame (q : Position) (it : Item) (d : Bool) :
    q.queueItem it d = { q with txq := (q.queueItem it d).txq } := by
  unfold Position.queueItem
  split <;> [split; skip] <;> rfl

/-- Queueing several items touches the transmit queue alone. -/
theorem queueItems_frame (d : Item → Bool) (its : List Item) (q : Position) :
    its.foldl (fun q it => q.queueItem it (d it)) q =
      { q with txq := (its.foldl (fun q it => q.queueItem it (d it)) q).txq } := by
  induction its generalizing q with
  | nil => rfl
  | cons it its ih =>
    simp only [List.foldl_cons]
    rw [ih, queueItem_frame]

/-- Two states agree but for the transmit queues. -/
def SameButTxq (s t : State) : Prop :=
  t = { s with positions := t.positions } ∧ ∀ p, t.pos p = { s.pos p with txq := (t.pos p).txq }

theorem SameButTxq.refl (s : State) : SameButTxq s s := ⟨rfl, fun _ => rfl⟩

theorem SameButTxq.trans {s t u : State} (h1 : SameButTxq s t) (h2 : SameButTxq t u) : SameButTxq s u := by
  refine ⟨?_, fun p => ?_⟩
  · rw [h2.1, h1.1]
  · rw [h2.2 p, h1.2 p]

theorem refreshPos_same (s : State) (p : Pos) : SameButTxq s (s.refreshPos p) := by
  unfold State.refreshPos
  split
  · refine ⟨rfl, fun q => ?_⟩
    rw [pos_updPos]
    split
    · next h => subst h; exact queueItems_frame _ _ _
    · rfl
  · exact .refl s

/-- Refreshing the pictures touches the transmit queues alone. -/
theorem refresh_same (s : State) : SameButTxq s s.refresh :=
  foldl_related SameButTxq.refl SameButTxq.trans _ refreshPos_same _ s

@[simp] theorem refresh_slots (s : State) : s.refresh.slots = s.slots := by rw [(refresh_same s).1]
@[simp] theorem refresh_orders (s : State) : s.refresh.orders = s.orders := by rw [(refresh_same s).1]
@[simp] theorem refresh_window (s : State) : s.refresh.window = s.window := by rw [(refresh_same s).1]
@[simp] theorem refresh_queue (s : State) : s.refresh.queue = s.queue := by rw [(refresh_same s).1]
@[simp] theorem refresh_link (s : State) : s.refresh.link = s.link := by rw [(refresh_same s).1]
@[simp] theorem refresh_tick (s : State) : s.refresh.tick = s.tick := by rw [(refresh_same s).1]
@[simp] theorem refresh_xout (s : State) : s.refresh.xout = s.xout := by rw [(refresh_same s).1]
@[simp] theorem refresh_slot (s : State) (i : Slot) : s.refresh.slot i = s.slot i := by simp [State.slot]
theorem refresh_loop (s : State) (p : Pos) (l : LoopNo) : s.refresh.loop p l = s.loop p l := by
  simp only [State.loop]; rw [(refresh_same s).2 p]

/-! ### Sending -/

/-- The entry of the list without its state. -/
def Entry.content (e : Entry) : Slot × CallRef × Order × Mark × Fin 4 := (e.slot, e.ref, e.order, e.mark, e.tries)

/-- Two states agree but for the states of the entries, a longer window and more messages sent. -/
def SentMore (s t : State) : Prop :=
  t = { s with orders := t.orders, window := t.window, xout := t.xout } ∧
  t.orders.map Entry.content = s.orders.map Entry.content ∧ s.window <+: t.window ∧ s.xout <+: t.xout

theorem SentMore.refl (s : State) : SentMore s s := ⟨rfl, rfl, List.prefix_rfl, List.prefix_rfl⟩

theorem SentMore.trans {s t u : State} (h1 : SentMore s t) (h2 : SentMore t u) : SentMore s u := by
  refine ⟨?_, h2.2.1.trans h1.2.1, h1.2.2.1.trans h2.2.2.1, h1.2.2.2.trans h2.2.2.2⟩
  rw [h2.1, h1.1]

theorem updEntry_content (s : State) (i : Slot) (st : EntryState) :
    (s.updEntry i fun e => { e with state := st }).orders.map Entry.content = s.orders.map Entry.content := by
  simp only [State.updEntry, List.map_map]
  congr 1
  funext e
  simp only [Function.comp]
  split <;> rfl

/-- One sending: nothing, or the oldest WAITING entry goes out (R127). -/
theorem sendOne_cases (s : State) :
    s.sendOne = s ∨ ∃ e, s.maySend = true ∧ s.oldestWaiting = some e ∧
      s.sendOne = { s.updEntry e.slot (fun e' => { e' with state := .sent (s.tick + s.timing.orderTimeout) false }) with
        window := s.window ++ [e.slot], xout := s.xout ++ [.order e.order e.ref] } := by
  unfold State.sendOne
  split
  · next h =>
    split
    · next e he => exact .inr ⟨e, h, he, rfl⟩
    · exact .inl rfl
  · exact .inl rfl

theorem sendOne_more (s : State) : SentMore s s.sendOne := by
  rcases sendOne_cases s with h | ⟨e, -, -, h⟩ <;> rw [h]
  · exact .refl s
  · exact ⟨rfl, updEntry_content _ _ _, List.prefix_append _ _, List.prefix_append _ _⟩

/-- Sending touches the states of entries, the window and the messages sent alone. -/
theorem sendOrders_more (s : State) : SentMore s s.sendOrders :=
  foldl_related SentMore.refl SentMore.trans _ (fun s _ => sendOne_more s) _ s

theorem finishOrders_slots (s : State) : s.finishOrders.slots = s.slots := by
  simp only [State.finishOrders, refresh_slots]
  rw [(sendOrders_more s).1]

/-! ### Offers -/

/-- What an automatic offer at a position rests on (R47, R49, R50). -/
theorem offerAt_some {s : State} {p p' : Pos} {l : LoopNo} {i : Slot} (h : s.offerAt p = some (p', l, i)) :
    p' = p ∧ s.loopsQuiet p = true ∧ s.lowestIdle p = some l ∧
      s.bestOf (s.queue.filter fun j => s.offerable p j) = some i := by
  unfold State.offerAt at h
  split at h
  · next hq =>
    split at h
    · next l' i' hl hi =>
      simp only [Option.some.injEq, Prod.mk.injEq] at h
      obtain ⟨rfl, rfl, rfl⟩ := h
      exact ⟨rfl, hq, hl, hi⟩
    · cases h
  · cases h

/-- The chosen call is one of the list. -/
theorem bestOf_mem {s : State} : ∀ {is : List Slot} {i : Slot}, s.bestOf is = some i → i ∈ is
  | [], i, h => by simp [State.bestOf] at h
  | x :: xs, i, h => by
    unfold State.bestOf at h
    split at h
    · cases h; exact List.mem_cons_self
    · next j hj =>
      split at h
      · cases h; exact List.mem_cons_self
      · cases h; exact List.mem_cons_of_mem _ (bestOf_mem hj)

/-- What eligibility says of the record (R47). -/
theorem eligible_record {s : State} {p : Pos} {i : Slot} (h : s.eligible p i = true) :
    ∃ r, s.record? i = some r ∧ r.loc = .queued ∧ r.mark = none ∧ r.claim = none ∧ s.inFlight i = false ∧
      covers (s.pos p).tenantMask r.tenant = true ∧ s.ownerAllows p r = true := by
  unfold State.eligible at h
  split at h
  · next r hr =>
    simp only [Bool.and_eq_true, beq_iff_eq, Bool.not_eq_true'] at h
    obtain ⟨⟨⟨⟨⟨h1, h2⟩, h3⟩, h4⟩, h5⟩, h6⟩ := h
    exact ⟨r, hr, h1, h2, h3, h4, h5, h6⟩
  · cases h

/-- An offerable call is eligible (R49). -/
theorem offerable_eligible {s : State} {p : Pos} {i : Slot} (h : s.offerable p i = true) : s.eligible p i = true := by
  unfold State.offerable at h
  split at h
  · exact h
  · simp only [Bool.and_eq_true] at h; exact h.1
  · cases h

/-- One more offer: nothing, or the next offer is made (R50). -/
theorem offerOnce_cases (s : State) :
    s.offerOnce = s ∨ ∃ p l i, s.nextOffer = some (p, l, i) ∧ s.offerOnce = s.offer p l i := by
  unfold State.offerOnce
  split
  · next p l i h => exact .inr ⟨p, l, i, h, rfl⟩
  · exact .inl rfl

end Sys2Proof.Machine
end

