-- ==== Sys2Proof/Laws/Orders.lean ====
section
/-! SUPPORT. What the operations on the order list and on record timers can do, said once each (chapters 2 and 7). -/

namespace Sys2Proof.Machine

/-! ### Entries -/

theorem inFlight_iff (s : State) (i : Slot) : s.inFlight i = true ↔ ∃ e ∈ s.orders, e.slot = i := by
  simp [State.inFlight]

theorem inFlight_eq_false (s : State) (i : Slot) : s.inFlight i = false ↔ ∀ e ∈ s.orders, e.slot ≠ i := by
  simp [State.inFlight]

/-- Issuing for a LIVE record with no entry adds one entry at the tail (R125). -/
theorem issue_settled {s : State} {i : Slot} {r : Record} (h : s.record? i = some r) (hn : s.inFlight i = false) (o : Order)
    (m : Mark) : s.issue i o m = { s with orders := s.orders ++ [⟨i, r.ref, o, m, .waiting, 0⟩] } := by
  simp [State.issue, h, hn]

/-- Issuing does nothing, or adds one WAITING entry at the tail of the order list. -/
theorem issue_cases (s : State) (i : Slot) (o : Order) (m : Mark) :
    s.issue i o m = s ∨ ∃ r, s.record? i = some r ∧ s.inFlight i = false ∧
      s.issue i o m = { s with orders := s.orders ++ [⟨i, r.ref, o, m, .waiting, 0⟩] } := by
  unfold State.issue
  split
  · next r hr =>
    split
    · exact .inl rfl
    · next hn => exact .inr ⟨r, hr, by simpa using hn, rfl⟩
  · exact .inl rfl

theorem issue_frame (s : State) (i : Slot) (o : Order) (m : Mark) :
    s.issue i o m = { s with orders := (s.issue i o m).orders } := by
  rcases issue_cases s i o m with h | ⟨_, _, _, h⟩ <;> rw [h]

@[simp] theorem issue_slots (s : State) (i : Slot) (o : Order) (m : Mark) : (s.issue i o m).slots = s.slots := by
  rw [issue_frame]
@[simp] theorem issue_positions (s : State) (i : Slot) (o : Order) (m : Mark) :
    (s.issue i o m).positions = s.positions := by rw [issue_frame]
@[simp] theorem issue_window (s : State) (i : Slot) (o : Order) (m : Mark) : (s.issue i o m).window = s.window := by
  rw [issue_frame]
@[simp] theorem issue_queue (s : State) (i : Slot) (o : Order) (m : Mark) : (s.issue i o m).queue = s.queue := by
  rw [issue_frame]

/-- The removed entry is gone (R130). -/
theorem inFlight_dropEntry (s : State) (i : Slot) : (s.dropEntry i).inFlight i = false := by
  simp [State.dropEntry, State.inFlight]

theorem inFlight_dropEntry_ne (s : State) {i j : Slot} (h : j ≠ i) : (s.dropEntry i).inFlight j = s.inFlight j := by
  rw [Bool.eq_iff_iff, inFlight_iff, inFlight_iff]
  constructor
  · rintro ⟨e, he, rfl⟩
    exact ⟨e, (List.mem_filter.1 he).1, rfl⟩
  · rintro ⟨e, he, rfl⟩
    exact ⟨e, List.mem_filter.2 ⟨he, by simpa using h⟩, rfl⟩

theorem entry?_slot {s : State} {i : Slot} {e : Entry} (h : s.entry? i = some e) : e.slot = i ∧ e ∈ s.orders := by
  unfold State.entry? at h
  exact ⟨by simpa using List.find?_some h, List.mem_of_find?_eq_some h⟩

/-! ### Record timers -/

theorem armNow_live {s : State} {i : Slot} {r : Record} (h : s.record? i = some r) (pu : Purpose) (iv : Interval) :
    s.armNow i pu iv = s.setSlot i (.live (r.armAt pu (s.tick + iv))) := updRec_live s i h _

theorem armFrom_live {s : State} {i : Slot} {r : Record} (h : s.record? i = some r) (pu : Purpose) (d : Tick)
    (iv : Interval) : s.armFrom i pu d iv = s.setSlot i (.live (r.armAt pu (rearmed s.tick d iv))) := updRec_live s i h _

/-- AGING from now, or no timer at 15 steps (R38). -/
theorem armAging_live {s : State} {i : Slot} {r : Record} (h : s.record? i = some r) :
    s.armAging i = s.setSlot i (.live (if r.aging < Config.agingCeiling
      then r.armAt .aging (s.tick + (s.tenant r.tenant).agingInterval) else r.disarm)) := updRec_live s i h _

/-- What the expiry of a record's timer can do: nothing, be held, or be delivered and the event finished (R31, R35). -/
theorem expiry_cases (s : State) (i : Slot) (pu : Purpose) (finish : State → State) :
    s.expiry i pu finish = s ∨
    (s.inFlight i = true ∧ s.expiry i pu finish = s.updRec i fun r => r.hold pu) ∨
    ∃ r t, s.record? i = some r ∧ r.timer = some t ∧ t.purpose = pu ∧ t.spent = false ∧ expired s.tick t.deadline = true ∧
      s.inFlight i = false ∧ s.expiry i pu finish = finish (s.deliver i pu t.deadline) := by
  unfold State.expiry
  split
  · next r hr =>
    split
    · next hd =>
      split
      · next hf => exact .inr (.inl ⟨hf, rfl⟩)
      · next hf =>
        split
        · next t ht =>
          simp only [Record.due, ht, Bool.and_eq_true, beq_iff_eq, Bool.not_eq_true'] at hd
          exact .inr (.inr ⟨r, t, hr, ht, hd.1.1, hd.1.2, hd.2, by simpa using hf, rfl⟩)
        · exact .inl rfl
    · exact .inl rfl
  · exact .inl rfl

end Sys2Proof.Machine
end

