-- ==== Sys2Proof/Laws/Holders.lean ====
section
/-! SUPPORT. What leaving a holder, retiring, recalling, claiming and emptying can change (chapters 1, 3 and 6). -/

namespace Sys2Proof.Machine

/-- A fold of position updates changes positions alone. -/
theorem foldl_positions {α : Type} (f : State → α → State)
    (hf : ∀ s a, f s a = { s with positions := (f s a).positions }) :
    ∀ (xs : List α) (s : State), xs.foldl f s = { s with positions := (xs.foldl f s).positions }
  | [], _ => rfl
  | x :: xs, s => by
    simp only [List.foldl_cons]
    rw [foldl_positions f hf xs (f s x)]
    rw [hf s x]

/-- Leaving a holder touches the queue, the orbits, the camp-on table and the positions alone. -/
theorem leaveHolder_frame (s : State) (i : Slot) :
    s.leaveHolder i = { s with
      queue := (s.leaveHolder i).queue, orbits := (s.leaveHolder i).orbits, camp := (s.leaveHolder i).camp
      positions := (s.leaveHolder i).positions } := by
  unfold State.leaveHolder
  split
  · split <;> rfl
  · rfl

@[simp] theorem leaveHolder_slots (s : State) (i : Slot) : (s.leaveHolder i).slots = s.slots := by rw [leaveHolder_frame]
@[simp] theorem leaveHolder_orders (s : State) (i : Slot) : (s.leaveHolder i).orders = s.orders := by
  rw [leaveHolder_frame]
@[simp] theorem leaveHolder_window (s : State) (i : Slot) : (s.leaveHolder i).window = s.window := by
  rw [leaveHolder_frame]

/-- The holder a record leaves, by its location. -/
theorem leaveHolder_queued {s : State} {i : Slot} {r : Record} (h : s.record? i = some r) (hl : r.loc = .queued) :
    s.leaveHolder i = { s with queue := s.queue.filter fun j => j != i } := by simp [State.leaveHolder, h, hl]

theorem leaveHolder_loop {s : State} {i : Slot} {r : Record} {p : Pos} {l : LoopNo} (h : s.record? i = some r)
    (hl : r.loc = .loop p l) : s.leaveHolder i = s.loopIdle p l := by simp [State.leaveHolder, h, hl]

theorem leaveHolder_parked {s : State} {i : Slot} {r : Record} {o : OrbitNo} (h : s.record? i = some r)
    (hl : r.loc = .parked o) : s.leaveHolder i = s.freeOrbits i := by simp [State.leaveHolder, h, hl]

/-- An orbit after the orbits of a slot are freed (R15, R111). -/
theorem orbit_freeOrbits (s : State) (i : Slot) (o : OrbitNo) :
    (s.freeOrbits i).orbit o = if (s.orbit o).names i then .empty else s.orbit o := by
  simp only [State.freeOrbits, State.orbit, Fin.getElem_fin, Vector.getElem_map]
  rfl

/-- Freeing a slot makes it FREE or RETIRING and takes its unsent entry out (R15). -/
theorem freeSlot_cases (s : State) (i : Slot) (ref : CallRef) :
    (∃ e, s.entry? i = some e ∧ e.isSent = true ∧ s.freeSlot i ref = s.setSlot i (.retiring ref)) ∨
    (∃ e, s.entry? i = some e ∧ e.isSent = false ∧ s.freeSlot i ref = (s.dropEntry i).setSlot i .free) ∨
    (s.entry? i = none ∧ s.freeSlot i ref = s.setSlot i .free) := by
  unfold State.freeSlot
  split
  · next e he =>
    split
    · next hs => exact .inl ⟨e, he, hs, rfl⟩
    · next hs => exact .inr (.inl ⟨e, he, by simpa using hs, rfl⟩)
  · next he => exact .inr (.inr ⟨he, rfl⟩)

/-- Two states agree but for the Call Table, the order list, the holders and the positions. -/
def SameButCalls (s t : State) : Prop :=
  t = { s with
    slots := t.slots, queue := t.queue, orbits := t.orbits, camp := t.camp, orders := t.orders, window := t.window
    positions := t.positions }

theorem SameButCalls.trans {s t u : State} (h1 : SameButCalls s t) (h2 : SameButCalls t u) : SameButCalls s u := by
  unfold SameButCalls at *
  rw [h2, h1]

theorem SameButCalls.of_positions {s t : State} (h : t = { s with positions := t.positions }) : SameButCalls s t := by
  unfold SameButCalls
  rw [h]

theorem leaveHolder_same (s : State) (i : Slot) : SameButCalls s (s.leaveHolder i) := by
  unfold SameButCalls
  rw [leaveHolder_frame]

theorem freeSlot_same (s : State) (i : Slot) (ref : CallRef) : SameButCalls s (s.freeSlot i ref) := by
  unfold SameButCalls
  rcases freeSlot_cases s i ref with ⟨_, _, _, h⟩ | ⟨_, _, _, h⟩ | ⟨_, h⟩ <;> rw [h] <;> rfl

/-- Retiring touches the slot, its entry, the holders and the positions alone (R15, R16). -/
theorem retire_same (s : State) (i : Slot) (gone : Bool) : SameButCalls s (s.retire i gone) := by
  unfold State.retire
  split
  · next r _ =>
    simp only
    have hnote : SameButCalls s
        (if gone then r.loops.foldl (fun t pl => t.noteFor pl.1 pl.2 (some i) AlertKind.callerGone.text) s else s) := by
      split
      · exact .of_positions (foldl_positions _ (fun _ _ => rfl) _ _)
      · rfl
    refine SameButCalls.trans hnote ?_
    refine SameButCalls.trans (leaveHolder_same _ i) ?_
    refine SameButCalls.trans (t := State.freeOrbits _ i) rfl ?_
    refine SameButCalls.trans (.of_positions (foldl_positions (fun t pl => t.loopIdle pl.1 pl.2) (fun _ _ => rfl) r.loops _)) ?_
    refine SameButCalls.trans (freeSlot_same _ i r.ref) ?_
    split
    · exact .of_positions (foldl_positions _ (fun _ _ => rfl) _ _)
    · rfl
  · rfl

/-- Re-examination (R21, R132): nothing, or the grant of a WAITING claim on a PARKED record with its CONNECT, or its end with the
loop IDLE and the error tone; and it acts on a record with an order in flight only in the rescue set (R90). -/
theorem reexamine_cases (s : State) (i : Slot) :
    s.reexamine i = s ∨ ∃ r c, s.slot i = .live r ∧ r.claim = some c ∧ c.granted = false ∧
      (s.inFlight i = false ∨ r.loc.isRescue = true) ∧
      ((Request.pickable .pickup r.loc = true ∧ s.reexamine i =
          (s.updRec i fun r => { r with claim := some ⟨c.pos, c.loop, true⟩ }).issue i (.connect c.pos c.loop) .none) ∨
        (Request.pickable .pickup r.loc = false ∧ s.reexamine i =
          ((s.updRec i fun r => { r with claim := none }).loopIdle c.pos c.loop).errorTone c.pos)) := by
  unfold State.reexamine
  rcases hr : s.record? i with - | r
  · exact .inl rfl
  rcases hc : r.claim with - | c
  · simp only [hc]; exact .inl trivial
  by_cases hg : (c.granted || (s.inFlight i && !r.loc.isRescue)) = true
  · simp only [hc, hg]; exact .inl (if_pos trivial)
  · simp only [hc, hg]
    have hg' : c.granted = false ∧ (s.inFlight i = false ∨ r.loc.isRescue = true) := by
      revert hg; cases c.granted <;> cases s.inFlight i <;> cases r.loc.isRescue <;> simp
    refine .inr ⟨r, c, (record?_eq_some s i).1 hr, hc, hg'.1, hg'.2, ?_⟩
    cases hp : Request.pickable .pickup r.loc
    · exact .inr ⟨rfl, by simp⟩
    · exact .inl ⟨rfl, by simp⟩

/-- Joining the queue's tail touches the queue list and the positions alone (R43, R46). -/
theorem joinTail_frame (s : State) (i : Slot) :
    s.joinTail i = { s with queue := (s.joinTail i).queue, positions := (s.joinTail i).positions } := by
  unfold State.joinTail
  split
  · unfold State.thresholdCheck
    simp only
    split
    · rw [foldl_positions _ (fun s a => by split <;> rfl) allPos]
    · rfl
  · rfl

/-- The queue list after a LIVE record has joined it. -/
theorem joinTail_queue {s : State} {i : Slot} {t : TenantNo} (h : s.tenantOf i = some t) :
    (s.joinTail i).queue = s.queue ++ [i] := by
  unfold State.joinTail
  rw [h]
  simp only [State.thresholdCheck]
  split
  · rw [foldl_positions _ (fun s a => by split <;> rfl) allPos]
  · rfl

/-- A night DIVERT issues at most one order. -/
theorem nightJoin_frame (s : State) (i : Slot) : s.nightJoin i = { s with orders := (s.nightJoin i).orders } := by
  unfold State.nightJoin State.nightDivert
  split
  · split
    · exact issue_frame _ _ _ _
    · rfl
  · rfl

/-- A recall touches the record, the queue list, the order list and the positions' alerts alone (R44). -/
theorem recall_frame (s : State) (i : Slot) (why : RecallReason) (owner : Option Pos) :
    s.recall i why owner = { s with
      slots := (s.recall i why owner).slots, queue := (s.recall i why owner).queue
      orders := (s.recall i why owner).orders, positions := (s.recall i why owner).positions } := by
  unfold State.recall
  rw [nightJoin_frame, joinTail_frame, State.armAging, updRec_frame, updRec_frame]

/-- The emptied Call Table (R4, R70, R137). -/
theorem clearCalls_slot (s : State) (i : Slot) : s.clearCalls.slot i = .free := by
  simp [State.clearCalls, State.slot]

theorem clearCalls_orbit (s : State) (o : OrbitNo) : s.clearCalls.orbit o = .empty := by
  simp [State.clearCalls, State.orbit]

theorem clearCalls_pos (s : State) (p : Pos) : s.clearCalls.pos p = (s.pos p).emptied := by
  simp [State.clearCalls, State.pos]

theorem clearCalls_loop (s : State) (p : Pos) (l : LoopNo) : s.clearCalls.loop p l = .idle := by
  simp [State.loop, clearCalls_pos, Position.emptied, Position.keepAlerts]

end Sys2Proof.Machine
end

