-- ==== Sys2Proof/Laws/Keys.lean ====
section
/-! SUPPORT. What a pressed key comes to: discarded, kept waiting, or evaluated in the same event (R73, R74). -/

namespace Sys2Proof.Machine

/-- Draining stops at once where the head of the buffer waits (R74). -/
theorem drain_waits {s : State} {p : Pos} {k : KeyMsg} {rest : List KeyMsg} (hk : (s.pos p).keys = k :: rest)
    (hw : s.keyWaits p k = true) (n : Nat) : s.drain p (n + 1) = s := by
  simp [State.drain, hk, hw]

/-- Draining an empty buffer does nothing. -/
theorem drain_empty {s : State} {p : Pos} (hk : (s.pos p).keys = []) (n : Nat) : s.drain p n = s := by
  cases n <;> simp [State.drain, hk]

theorem drainKeys_empty {s : State} {p : Pos} (hk : (s.pos p).keys = []) : s.drainKeys p = s := drain_empty hk _

/-- With every buffer empty, nothing is evaluated at the end of an event. -/
theorem drainAll_empty {s : State} (hk : ∀ p, (s.pos p).keys = []) : s.drainAll = s := by
  simp [State.drainAll, allPos, drainKeys_empty, hk]

theorem finishAll_empty {s : State} (hk : ∀ p, (s.pos p).keys = []) : s.finishAll = s.finishOffers := by
  rw [State.finishAll, drainAll_empty hk]

/-- Whether a key waits does not depend on the buffers. -/
theorem keyWaits_keys (s : State) (p : Pos) (ks : List KeyMsg) (k : KeyMsg) :
    (s.updPos p fun q => { q with keys := ks }).keyWaits p k = s.keyWaits p k := by
  simp only [State.keyWaits, State.loop, pos_updPos_self]
  rfl

/-- A key pressed at an equipped position that is not FAULTED, with an empty buffer, and that does not wait, is evaluated at once,
and the event is finished by offers, sending and pictures. -/
theorem press_now {s : State} {p : Pos} {k : KeyMsg} (h1 : (s.pos p).state ≠ .absent) (h2 : (s.pos p).state ≠ .faulted)
    (hk : (s.pos p).keys = []) (hw : s.keyWaits p k = false) : s.press p k = (s.evalKey p k).finishOffers := by
  have hself : s.updPos p (fun q => { q with keys := [] }) = s :=
    updPos_self s p (fun q => { q with keys := [] }) (by simp [← hk])
  have hone : s.updPos p (fun q => { q with keys := q.keys ++ [k] }) = s.updPos p fun q => { q with keys := [k] } := by
    simp [State.updPos, hk]
  have hlen : (s.pos p).keys.length < Config.keyPlaces := by simp [hk, Config.keyPlaces]
  have hdrain : (s.updPos p fun q => { q with keys := [k] }).drainKeys p = s.evalKey p k := by
    have hkeys : ((s.updPos p fun q => { q with keys := [k] }).pos p).keys = [k] := by simp
    have hw' : (s.updPos p fun q => { q with keys := [k] }).keyWaits p k = false := by rw [keyWaits_keys, hw]
    unfold State.drainKeys
    rw [hkeys]
    simp only [List.length_singleton, State.drain, hkeys, hw', updPos_updPos, Bool.false_eq_true, if_false]
    exact congrArg (fun t => State.evalKey t p k) hself
  unfold State.press
  split
  · next h => exact absurd h h1
  · next h => exact absurd h h2
  · rw [if_pos hlen, hone, hdrain]

/-- A key that waits at the head of the buffer stays there. -/
theorem press_waits {s : State} {p : Pos} {k : KeyMsg} (h1 : (s.pos p).state ≠ .absent) (h2 : (s.pos p).state ≠ .faulted)
    (hk : (s.pos p).keys = []) (hw : s.keyWaits p k = true) :
    s.press p k = (s.updPos p fun q => { q with keys := [k] }).finishOffers := by
  have hone : s.updPos p (fun q => { q with keys := q.keys ++ [k] }) = s.updPos p fun q => { q with keys := [k] } := by
    simp [State.updPos, hk]
  have hlen : (s.pos p).keys.length < Config.keyPlaces := by simp [hk, Config.keyPlaces]
  have hdrain : (s.updPos p fun q => { q with keys := [k] }).drainKeys p = s.updPos p fun q => { q with keys := [k] } := by
    have hkeys : ((s.updPos p fun q => { q with keys := [k] }).pos p).keys = [k] := by simp
    unfold State.drainKeys
    rw [hkeys]
    exact drain_waits hkeys (by rw [keyWaits_keys, hw]) 0
  unfold State.press
  split
  · next h => exact absurd h h1
  · next h => exact absurd h h2
  · rw [if_pos hlen, hone, hdrain]

/-- A key at a position with a full buffer is discarded with the error tone (R73). -/
theorem press_full {s : State} {p : Pos} {k : KeyMsg} (h1 : (s.pos p).state ≠ .absent) (h2 : (s.pos p).state ≠ .faulted)
    (hk : Config.keyPlaces ≤ (s.pos p).keys.length) : s.press p k = s.errorTone p := by
  unfold State.press
  split
  · next h => exact absurd h h1
  · next h => exact absurd h h2
  · rw [if_neg (by omega)]

end Sys2Proof.Machine
end

