-- ==== Sys2Proof/Laws/Links.lean ====
section
/-! SUPPORT. What the receivers of the lines do with idle levels and quiet lines (R152, R154). -/

namespace Sys2Proof.Machine

/-- Idle levels before a character are passed over. -/
theorem takeChar_idle (n : Nat) (rest : List Level) : takeChar (List.replicate n true ++ rest) = takeChar rest := by
  induction n with
  | zero => simp
  | succ n ih =>
    rw [List.replicate_succ, List.cons_append, ← ih]
    simp [takeChar, takeCharFrom]

/-- The exchange link has no turn exactly while no frame has timed out and no character is complete. -/
theorem exchangeTurn_eq_none (s : State) :
    s.exchangeTurn = none ↔ s.xrx.timedOut = false ∧ takeChar s.xline = none := by
  unfold State.exchangeTurn
  cases ht : s.xrx.timedOut
  · cases takeChar s.xline <;> simp
  · simp

/-- A position link has no turn exactly while the position is not equipped, or has no timed-out frame and no complete character. -/
theorem positionTurn_eq_none (s : State) (p : Pos) :
    s.positionTurn p = none ↔
      (s.pos p).state.equipped = false ∨ ((s.pos p).rx.timedOut = false ∧ takeChar (s.pos p).line = none) := by
  unfold State.positionTurn
  cases he : (s.pos p).state.equipped
  · simp [he]
  · cases ht : (s.pos p).rx.timedOut
    · cases hc : takeChar (s.pos p).line <;> simp [he, ht, hc]
    · simp [he, ht]

end Sys2Proof.Machine
end

