-- ==== Sys2Proof/WellFormed.lean ====
section
/-! DEFINITION. Which commands stand for something that can reach the part: frame bodies have 1 to 60 bytes (R143), the
rows that split one message by a byte carry that byte, and key arguments have six digit bytes (R154). The meanings are
total; this check says which operands a link can produce. -/

namespace Sys2Proof

/-- A frame body has 1 to 60 bytes (R143). -/
def bodyOk (body : List Byte) : Bool := decide (1 ≤ body.length) && decide (body.length ≤ 60)

/-- A key message has six digit bytes (R153, KEY layout). -/
def KeyArgs.ok (a : KeyArgs) : Bool := a.digits.length == 6

/-- The type codes of the inbound exchange messages (R150): 0x01 to 0x0D. -/
def inboundType (typ : Byte) : Bool := decide (1 ≤ typ.toNat) && decide (typ.toNat ≤ 13)

/-- The well-formed commands. A DEST_STATE or RESPONSE row names the byte it stands for, unless the body's length is not
the one its type requires or the byte is none of the listed codes (then either row of that message may carry it, R145,
R128). -/
def Instr.wellFormed : Instr → Bool
  | .linkUp body => bodyOk body
  | .restart body => bodyOk body
  | .arrive body => bodyOk body
  | .cleared body => bodyOk body
  | .destStateAnswered body => bodyOk body && !(body.length == 3 && body[2]? == some 2)
  | .destStateDestCleared body => bodyOk body && !(body.length == 3 && body[2]? == some 1)
  | .extFree body => bodyOk body
  | .responseDone body => bodyOk body && !(body.length == 5 && (body[3]? == some 2 || body[3]? == some 3))
  | .responseRefused body => bodyOk body && !(body.length == 5 && (body[3]? == some 1 || body[3]? == some 3))
  | .responseRetry body => bodyOk body && !(body.length == 5 && (body[3]? == some 1 || body[3]? == some 2))
  | .pause body => bodyOk body
  | .resume body => bodyOk body
  | .tenantSet body => bodyOk body
  | .timingSet body => bodyOk body
  | .positionSet body => bodyOk body
  | .statusQuery body => bodyOk body
  | .key _ _ body => bodyOk body
  | .unknownMessageType typ body => bodyOk body && !inboundType typ
  | .openKey _ a => a.ok
  | .closeKey _ a => a.ok
  | .withdrawKey _ a => a.ok
  | .resumeKey _ a => a.ok
  | .reviewKey _ a => a.ok
  | .answerNextKey _ a => a.ok
  | .pickupKey _ a => a.ok
  | .loopKey _ a => a.ok
  | .releaseKey _ a => a.ok
  | .holdKey _ a => a.ok
  | .parkKey _ a => a.ok
  | .extendKey _ a => a.ok
  | .cancelKey _ a => a.ok
  | .campKey _ a => a.ok
  | .clearKey _ a => a.ok
  | .reset _ _ _ => true
  | .tick _ => true
  | .agingExpiry _ => true
  | .offerExpiry _ => true
  | .holdRecallExpiry _ => true
  | .escalateExpiry _ => true
  | .noAnswerExpiry _ => true
  | .campTimeoutExpiry _ => true
  | .parkRecallExpiry _ => true
  | .orderTimeout => true
  | .retryDeadlineExpiry _ => true
  | .nightDelayExpiry => true
  | .toneRepeatExpiry _ => true
  | .frameByteTimeout _ => true
  | .frameError _ => true
  | .carrierLoss _ => true
  | .carrierReturn _ => true
  | .orderSend => true
  | .positionFrameSend _ => true

end Sys2Proof
end

