-- ==== Sys2Proof/Tests/Slice0.lean ====
section
/-! SUPPORT. Tests: ill-formed commands that WellFormed refuses, frames and tables of the manual, small events, and one witness of
the hypotheses of every statement (`test_wit_…`). Expected values are taken from the manual's rules and worked examples, named at
each test. -/

namespace Sys2Proof.Tests

-- One theorem at a time, so that the evaluations below share the machine.
set_option Elab.async false

open Sys2Proof.Machine

/-! ### States and commands for the tests -/

/-- The state an event answers. -/
def after (o : Host.Outcome State Fault Refusal) : State :=
  match o with
  | .next t => t
  | _ => State.reset

/-- P0 right after Open. -/
def opened0 : Position := { Position.atReset 3 0xF 0 with state := .opened }

/-- The link UP, P0 OPEN and tenant 1 in service. -/
def base : State :=
  { State.reset with
    link := .up, night := .day, positions := State.reset.positions.set 0 opened0
    tenants := State.reset.tenants.set 1 { Tenant.initial with inService := true } }

/-- A call of tenant 1 with priority class 2 and reference 5. -/
def call : Record :=
  { ref := 5, tenant := 1, prio := 2, digits := [1], kind := .new, owner := none, loc := .queued, mark := none, claim := none
    dest := none, step := 0, aging := 0, timer := none, held := none, overflowSpent := false }

/-- The call alone, in slot 3. -/
def one (r : Record) : State := base.setSlot 3 (.live r)

/-- The call on L1 of P0, in a loop state. -/
def onLoop (x : LoopState) (r : Record) : State := (one { r with loc := .loop 0 0 }).setLoop 0 0 x

/-- A SENT entry of the call. -/
def sent (o : Order) (m : Mark) : Entry := ⟨3, 5, o, m, .sent 20 false, 0⟩

/-- The entry alone in the order list and in the send window. -/
def awaiting (s : State) (e : Entry) : State := { s with orders := [e], window := [e.slot] }

/-- Key arguments: a loop number and digits. -/
def args (l : Nat) (ds : List Nat) : KeyArgs :=
  ⟨BitVec.ofNat 8 l, BitVec.ofNat 8 ds.length, (ds.map (BitVec.ofNat 8) ++ List.replicate 6 0).take 6⟩

/-! ### WellFormed refuses -/

theorem test_ill_empty_body : (Instr.pause []).wellFormed = false := by decide
theorem test_ill_long_body : (Instr.arrive (List.replicate 61 0)).wellFormed = false := by decide
theorem test_ill_link_up : (Instr.linkUp []).wellFormed = false := by decide
theorem test_ill_restart : (Instr.restart []).wellFormed = false := by decide
theorem test_ill_cleared : (Instr.cleared []).wellFormed = false := by decide
theorem test_ill_dest_answered : (Instr.destStateAnswered [0, 5, 2]).wellFormed = false := by decide
theorem test_ill_dest_cleared : (Instr.destStateDestCleared [0, 5, 1]).wellFormed = false := by decide
theorem test_ill_ext_free : (Instr.extFree []).wellFormed = false := by decide
theorem test_ill_done : (Instr.responseDone [2, 0, 5, 2, 0]).wellFormed = false := by decide
theorem test_ill_refused : (Instr.responseRefused [2, 0, 5, 1, 0]).wellFormed = false := by decide
theorem test_ill_retry : (Instr.responseRetry [2, 0, 5, 1, 0]).wellFormed = false := by decide
theorem test_ill_resume : (Instr.resume []).wellFormed = false := by decide
theorem test_ill_tenant_set : (Instr.tenantSet []).wellFormed = false := by decide
theorem test_ill_timing_set : (Instr.timingSet []).wellFormed = false := by decide
theorem test_ill_position_set : (Instr.positionSet []).wellFormed = false := by decide
theorem test_ill_status_query : (Instr.statusQuery []).wellFormed = false := by decide
theorem test_ill_key_frame : (Instr.key 0 0x31 []).wellFormed = false := by decide
theorem test_ill_unknown_type : (Instr.unknownMessageType 0x0D [0]).wellFormed = false := by decide
theorem test_ill_keys : ∀ k ∈ allKeys, (keyCommand k 0 ⟨1, 0, [0]⟩).wellFormed = false := by decide
theorem test_well_formed_keys : ∀ k ∈ allKeys, (keyCommand k 0 (args 1 [])).wellFormed = true := by decide

/-! ### Words, frames and bodies of the manual -/

/-- The table gives no bits (98_reader.md). -/
theorem test_no_word : decodeTableWord 16 5 = none ∧ (State.reset.withFetchWord 16 5).pending = [] := by decide +kernel

/-- The frame of PAUSE: start, length 1, type 0x08, an empty body byte, and the check that makes the sum 0 (R143). -/
theorem test_pause_frame : frameBytes 0x08 [0] = [0x7E, 0x01, 0x08, 0x00, 0xF7] := by decide
theorem test_pause_received : Rx.hunting.feedAll [0x7E, 0x01, 0x08, 0x00, 0xF7] = (.hunting, [.frame 0x08 [0]]) := by
  decide +kernel

/-- R152: the line form of 0x01: a start bit, the least significant data bit first, a stop bit; read behind idle levels, and not
before its stop bit has come. -/
theorem test_char_levels : charLevels 0x01 = [false, true, false, false, false, false, false, false, false, true] ∧
    takeChar (true :: true :: charLevels 0x93 ++ [false]) = some (0x93, [false]) ∧ takeChar (charLevels 0x93).dropLast = none := by
  decide
/-- R152, R143, R154: the frame of a Withdraw key, level by level on the receive pin of P0, makes P0 WITHDRAWN; the last step
runs the command that the last character completes. -/
theorem test_levels_to_key :
    let s := base.updPos 0 fun q => { q with
      line := charLevels 0xC3, rx := .filling 9 [0x31, 3, 0, 0, 0, 0, 0, 0, 0, 0] 0 }
    ((after (step (after (step s)))).pos 0).state = .withdrawn := by decide +kernel

/-- ORDER CONNECT to P2, L5 for reference 0x1234: kind 1, the reference, position 2, loop 5, no extension (R153). -/
theorem test_order_frame : (XMsg.order (.connect 2 4) 0x1234).typed =
    (0x21, [0x01, 0x12, 0x34, 0x02, 0x05, 0, 0, 0, 0, 0, 0, 0]) := by decide
/-- ORDER RING_EXT 304: kind 4 and a digit count of 3 (R153). -/
theorem test_ring_frame : (XMsg.order (.ringExt [3, 0, 4]) 7).typed =
    (0x21, [0x04, 0x00, 0x07, 0, 0, 3, 3, 0, 4, 0, 0, 0]) := by decide
/-- LAMP for loop lamp 3 WINK, TONE RING (R153). -/
theorem test_lamp_frame : (PosFrame.lamp 2 .wink).typed = (0x32, [3, 3]) ∧ (PosFrame.tone .ring).typed = (0x34, [1]) := by
  decide
/-- Rows by body byte (R153). -/
theorem test_rows_by_byte :
    Decode.exchangeCommand 0x07 [2, 0, 5, 2, 1] = .responseRefused [2, 0, 5, 2, 1] ∧
    Decode.exchangeCommand 0x07 [2, 0, 5, 3, 0] = .responseRetry [2, 0, 5, 3, 0] ∧
    Decode.exchangeCommand 0x05 [0, 5, 2] = .destStateDestCleared [0, 5, 2] ∧
    Decode.exchangeCommand 0x0E [0] = .unknownMessageType 0x0E [0] := by decide
/-- Extension fields: none, five digits, one digit (malformed), a digit of 10 (malformed) (R145, R150). -/
theorem test_extensions :
    Decode.parseExtension 0 [9, 9, 9, 9, 9, 9] = some none ∧
    Decode.parseExtension 5 [1, 2, 3, 4, 5, 99] = some (some [1, 2, 3, 4, 5]) ∧
    Decode.parseExtension 1 [1, 0, 0, 0, 0, 0] = none ∧ Decode.parseExtension 2 [1, 10, 0, 0, 0, 0] = none := by decide

/-! ### Worked figures of chapter 2 -/

/-- 2.8: AGING re-armed from 1,200 by 100 at tick 1,205; 1 past a whole interval at 5,104 from 5,030 by 30. -/
theorem test_rearm_examples : rearmed 1205 1200 100 = 1300 ∧ rearmed 5104 5030 30 = 5105 := by decide
/-- The wrap of the counter: a deadline of 100 armed at 65,500 by 136 (R29, R30). -/
theorem test_wrap : (65500 : Tick) + 136 = 100 ∧ expired 65500 100 = false ∧ expired 99 100 = false ∧
    expired 100 100 = true := by decide
/-- The largest sum, 271, counts as 255 (R41). -/
theorem test_rank_ceiling :
    State.rank { base with tenants := base.tenants.set 1 { Tenant.initial with classBase := 63, agingWeight := 8 } }
      { call with prio := 3, aging := 15, kind := .recall .hold } = 255 := by decide +kernel
/-- R27: 0 is stored as 1 and 40,000 as 32,767. -/
theorem test_clamp : clampInterval 0 = 1 ∧ clampInterval 40000 = 32767 ∧ clampInterval 250 = 250 := by decide

/-! ### Small events -/

/-- R62 and R68: Open makes the night state DAY. -/
theorem test_open : ((after (exec (.openKey 0 (args 0 [])) State.reset)).pos 0).state = .opened ∧
    (after (exec (.openKey 0 (args 0 [])) State.reset)).night = .day := by decide +kernel
/-- R75: a loop number on a position key gives the error tone. -/
theorem test_open_out_of_range :
    ((after (exec (.openKey 0 (args 1 [])) State.reset)).pos 0).txq = [.item (.lamp 8) false, .tone .error] := by
  decide +kernel
/-- R12, R13, R52: an admitted call is offered at once to the open position, and CALL_TAKEN names slot 0. -/
theorem test_arrive : (after (exec (.arrive [0, 9, 1, 0, 1, 0]) base)).loop 0 0 = .alerting 0 ∧
    (after (exec (.arrive [0, 9, 1, 0, 1, 0]) base)).xout = [.callTaken 9 0] := by decide +kernel
/-- R12: tenant 2 is not in service. -/
theorem test_arrive_declined :
    (after (exec (.arrive [0, 9, 2, 0, 1, 0]) base)).xout = [.callDeclined 9 .tenant] := by decide +kernel
/-- R79: Hold at TALK issues HOLD, which is sent in the event (R127). -/
theorem test_hold : (after (exec (.holdKey 0 (args 1 [])) (onLoop (.talk 3) call))).xout = [.order .hold 5] := by
  decide +kernel
/-- R79: HOLD DONE makes the loop HELD. -/
theorem test_hold_done : (after (exec (.responseDone [2, 0, 5, 1, 0])
    (awaiting (onLoop (.talk 3) call) (sent .hold .none)))).loop 0 0 = .held 3 := by decide +kernel
/-- R129: another reference brings a notice. -/
theorem test_mismatch : (after (exec (.responseDone [2, 0, 6, 1, 0])
    (awaiting (onLoop (.talk 3) call) (sent .hold .none)))).xout = [.notice .protocolError 0x07 6] := by decide +kernel
/-- R93: Extend gives step 1 and SPLIT. -/
theorem test_extend : (after (exec (.extendKey 0 (args 1 [3, 0, 4])) (onLoop (.talk 3) call))).loop 0 0 = .extend 3 ∧
    (after (exec (.extendKey 0 (args 1 [3, 0, 4])) (onLoop (.talk 3) call))).xout = [.order .split 5] := by decide +kernel
/-- R16: CLEARED frees the slot and the loop. -/
theorem test_cleared : (after (exec (.cleared [0, 5]) (onLoop (.held 3) call))).slot 3 = .free ∧
    (after (exec (.cleared [0, 5]) (onLoop (.held 3) call))).loop 0 0 = .idle := by decide +kernel
/-- R140: ARRIVE before LINK_UP is discarded. -/
theorem test_arrive_down : (after (exec (.arrive [0, 9, 1, 0, 1, 0]) State.reset)).xout =
    [.notice .protocolError 0x03 9] := by decide +kernel
/-- R25: the counter goes from 65,535 to 0. -/
theorem test_tick_wraps : (after (exec (.tick 0xF) { base with tick := 65535 })).tick = 0 := by decide +kernel
/-- R69, R85: a lost carrier makes the position FAULTED and a held call a recall. -/
theorem test_carrier_loss : ((after (exec (.carrierLoss 0) (onLoop (.held 3) call))).pos 0).state = .faulted ∧
    (after (exec (.carrierLoss 0) (onLoop (.held 3) call))).queue = [3] := by decide +kernel

/-! ### Witnesses: concrete states that meet the hypotheses of each statement, clause by clause -/

/-- A timer one tick past its deadline. -/
def late (pu : Purpose) : Timer := ⟨pu, 65535, false⟩

/-- The call with an expired timer. -/
def expiring (pu : Purpose) : Record := { call with timer := some (late pu) }

/-- The call SENT and at the head of the window, on L1 of P0 in TALK. -/
def talking : State := awaiting (onLoop (.talk 3) call) (sent .hold .none)

theorem talking_orders : talking.ordersOk := by
  have hr : ∀ i, (talking.slot i).isRetiring = false := by decide +kernel
  refine ⟨by decide +kernel, by decide +kernel, by decide +kernel, ?_, ?_⟩
  · intro e he
    have : e = sent .hold .none := by simpa [talking, awaiting] using he
    subst this
    exact .inl ⟨{ call with loc := .loop 0 0 }, by decide +kernel, rfl⟩
  · intro i ref h
    have := hr i
    rw [h] at this
    cases this

theorem only_slot_refs {s : State} {ref : CallRef} (h0 : ref ≠ 0) (h3 : ∀ x, (s.slot 3).holds x = true → x = ref)
    (h : ∀ i, i ≠ 3 → s.slot i = .free) : s.refsOk := by
  have hat : ∀ i x, (s.slot i).holds x = true → i = 3 ∧ x = ref := by
    intro i x hx
    by_cases hi : i = 3
    · subst hi; exact ⟨rfl, h3 x hx⟩
    · rw [h i hi] at hx; cases hx
  refine ⟨fun i j x hi hj => (hat i x hi).1.trans (hat j x hj).1.symm, fun i => ?_⟩
  cases hx : (s.slot i).holds 0
  · rfl
  · exact absurd (hat i 0 hx).2.symm h0

theorem talking_refs : talking.refsOk := by
  refine only_slot_refs (ref := 5) (by decide) (fun x hx => ?_) (by decide +kernel)
  have h3 : talking.slot 3 = .live { call with loc := .loop 0 0 } := by decide +kernel
  rw [h3] at hx
  exact (eq_of_beq hx).symm

theorem test_wit_step : ({ base with pending := [.orderSend] }).pending = .orderSend :: [] ∧ base.pending = [] ∧
    base.xrx.timedOut = false ∧ takeChar base.xline = none ∧
    (∀ p, (base.pos p).rx.timedOut = false ∧ takeChar (base.pos p).line = none) ∧
    ((State.atReset 0 false 0).pos 1).state = .absent := by
  decide +kernel

/-- StepKeepsOrdersOk, on a state with an order in flight. -/
theorem test_wit_keeps_orders : { talking with pending := [.orderTimeout] }.ordersOk ∧
    { talking with pending := [.orderTimeout] }.refsOk ∧
    ∃ t, step { talking with pending := [.orderTimeout] } = .next t := ⟨talking_orders, talking_refs, _, rfl⟩

theorem test_wit_keeps_queue : ∃ s t : State, s.queueOk ∧ s.queue = [3] ∧ step s = .next t := by
  refine ⟨{ one call with queue := [3], pending := [.agingExpiry 3] }, _, ⟨by decide, fun i => ?_⟩, rfl, rfl⟩
  by_cases hi : i = 3
  · subst hi
    exact ⟨fun _ => ⟨call, by decide +kernel, rfl⟩, fun _ => by decide +kernel⟩
  · have hf : ∀ j, j ≠ 3 → (one call).slot j = .free := by decide +kernel
    refine ⟨fun h => absurd (by simpa using h) hi, ?_⟩
    rintro ⟨r, hr, _⟩
    have : (one call).slot i = .live r := hr
    rw [hf i hi] at this
    cases this

theorem test_wit_keeps_night : { base with pending := [.closeKey 0 (args 0 [])] }.nightOk ∧
    ∃ t, step { base with pending := [.closeKey 0 (args 0 [])] } = .next t := by
  refine ⟨?_, _, rfl⟩
  unfold State.nightOk
  decide +kernel

theorem test_wit_keeps_down : { State.reset with pending := [.linkUp [0]] }.downOk ∧
    ∃ t, step { State.reset with pending := [.linkUp [0]] } = .next t := by
  refine ⟨?_, _, rfl⟩
  unfold State.downOk
  decide +kernel

/-- A position with a loop alert and a position-level alert, a tone repeat, a waiting key and four tones. -/
def busy : State := base.updPos 0 fun q => { q with
  alerts := [⟨.offer, some 0⟩, ⟨.exchangeDown, none⟩], toneRepeat := some 3, keys := [⟨.hold, args 1 []⟩]
  txq := [.tone .ring, .tone .beep, .tone .beep, .tone .error] }

theorem test_wit_keeps_bounds : { busy with pending := [.tick 0xF] }.boundsOk ∧ { busy with pending := [.tick 0xF] }.alertsOk ∧
    { busy with pending := [.tick 0xF] }.tonesOk ∧ ∃ t, step { busy with pending := [.tick 0xF] } = .next t := by
  refine ⟨?_, ?_, ?_, _, rfl⟩
  · unfold State.boundsOk; decide +kernel
  · unfold State.alertsOk; decide +kernel
  · unfold State.tonesOk; decide +kernel

theorem test_wit_frames : (1 ≤ ([0] : List Byte).length ∧ ([0] : List Byte).length ≤ 60) ∧
    (List.replicate 60 (0 : Byte)).length ≤ 60 ∧ (0x7D : Byte) ≠ 0x7E ∧ 60 < (61 : Byte).toNat ∧
    BitVec.ofNat 8 ([0] : List Byte).length + 0x08 + ([0] : List Byte).foldl (fun x y => x + y) 0 + 0xF6 ≠ (0 : Byte) := by
  decide

theorem test_wit_event_end : (base.pos 0).state ≠ .absent ∧ base.finishOffers.itemDiffers 0 (.lamp 6) = true ∧
    base.finishOffers.maySend = true := by decide +kernel

/-- OrderSendSendsTheOldestWaiting: a WAITING entry, and a state where nothing may be sent. -/
theorem test_wit_order_send : ∃ (s : State) (e : Entry), s.ordersOk ∧ s.link = .up ∧ s.paused = false ∧
    s.window.length < 8 ∧ s.orders = [] ++ e :: [] ∧ e.state = .waiting ∧ ({ s with paused := true }).paused = true := by
  have hr : ∀ i, ((one call).slot i).isRetiring = false := by decide +kernel
  refine ⟨{ one call with orders := [Entry.fresh 3 call .hold .none] }, Entry.fresh 3 call .hold .none,
    ⟨by decide +kernel, by decide +kernel, by decide +kernel, ?_, ?_⟩, rfl, rfl, by decide, rfl, rfl, rfl⟩
  · intro e he
    have : e = Entry.fresh 3 call .hold .none := by simpa using he
    subst this
    exact .inl ⟨call, by decide +kernel, rfl⟩
  · intro i ref h
    have hi : (one call).slot i = .retiring ref := h
    have := hr i
    rw [hi] at this
    cases this

theorem test_wit_frame_send : (base.pos 1).state ≠ .absent ∧ (base.pos 1).txq = .item (.lamp 8) false :: [] ∧
    ((base.updPos 1 fun q => { q with txq := [] }).pos 1).txq = [] ∧
    ((base.updPos 1 fun q => { q with txq := [.tone .ring] }).pos 1).txq = .tone .ring :: [] ∧
    ((base.updPos 1 fun q => { q with txq := [.item (.line 1) true] }).pos 1).txq = .item (.line 1) true :: [] := by
  decide +kernel

theorem test_wit_rank : (base.tenant 1).classBase ≤ 63 ∧ (base.tenant 1).agingWeight ≤ 8 := by decide +kernel

theorem test_wit_best : ([3, 4] : List Slot) ≠ [] ∧ (one call).bestOf [3, 4] = some 3 ∧ (one call).bestOf [4, 3] = some 3 ∧
    base.bestOf [4, 3] = some 4 := by decide +kernel

theorem test_wit_offer : State.nextOffer { one call with queue := [3], pointer := 2 } = some (0, 0, 3) := by decide +kernel

theorem test_wit_deadlines : 1 ≤ (1 : Interval).toNat ∧ (32767 : Interval).toNat ≤ 32767 ∧ rearmed 10 0 20 = 20 ∧
    rearmed 20 0 20 = 21 := by decide

theorem test_wit_tick : talking.ordersOk ∧ base.ordersOk ∧ base.carriersAgree 0xF := by
  refine ⟨talking_orders, ⟨by decide, by decide, fun i => ⟨(by intro h; cases h), (by rintro ⟨e, he, -⟩; cases he)⟩,
    (by intro e he; cases he), fun i ref h => ?_⟩, ?_⟩
  · have hf : base.slot i = .free := (by decide +kernel : ∀ j, base.slot j = .free) i
    rw [h] at hf
    cases hf
  · unfold State.carriersAgree
    decide +kernel

theorem test_wit_link_failure : { talking with tick := 19 }.carriersAgree 0xF ∧
    { talking with tick := 19 }.answering (sent .hold .none) ∧ (sent .hold .none).state = .sent 20 false ∧
    ((19 : Tick) + 1 - 20).toNat < 32768 ∧ (({ talking with tick := 19 }).pos 0).keys = [] ∧
    (({ talking with tick := 19 }).pos 0).latchMask.getLsbD 10 = true := by
  unfold State.carriersAgree State.answering
  decide +kernel

theorem test_wit_expiry_held : (awaiting (one (expiring .aging)) (sent (.divert [1, 2]) .night)).dueAt 3 (expiring .aging) .aging
      65535 ∧ (∃ e ∈ (awaiting (one (expiring .aging)) (sent (.divert [1, 2]) .night)).orders, e.slot = 3) ∧
    (one (expiring .aging)).dueAt 3 (expiring .aging) .aging 65535 ∧ (one (expiring .aging)).settled 3 (expiring .aging) ∧
    base.slot 3 = .free := by
  unfold State.dueAt State.settled
  decide +kernel

theorem test_wit_aging : (one (expiring .aging)).settled 3 (expiring .aging) ∧
    (one (expiring .aging)).dueAt 3 (expiring .aging) .aging 65535 ∧ (1 : Fin 16).val = min 15 (call.aging.val + 1) ∧
    (15 : Fin 16).val = min 15 ((15 : Fin 16).val + 1) := by
  unfold State.settled State.dueAt
  decide +kernel

/-- Each of the other record timers, at a call with no order in flight. -/
theorem test_wit_record_timers : ∀ pu ∈ [Purpose.offer, .holdRecall, .escalate, .noAnswer, .campTimeout, .parkRecall],
    (one { expiring pu with mark := some (0, 0), loc := .loop 0 0 }).slot 3 =
      .live { expiring pu with mark := some (0, 0), loc := .loop 0 0 } ∧
    (one { expiring pu with mark := some (0, 0), loc := .loop 0 0 }).orders = [] ∧
    { expiring pu with mark := some (0, 0), loc := .loop 0 0 }.timer = some ⟨pu, 65535, false⟩ ∧
    (base.tick - 65535).toNat < 32768 := by
  decide +kernel

theorem test_wit_park_recall : (one { expiring .parkRecall with loc := .parked 4 }).settled 3
      { expiring .parkRecall with loc := .parked 4 } ∧
    (one { expiring .parkRecall with loc := .parked 4 }).dueAt 3 { expiring .parkRecall with loc := .parked 4 } .parkRecall
      65535 := by
  unfold State.settled State.dueAt
  decide +kernel

theorem test_wit_night : ([3, 5] : List Slot).Nodup ∧ ({ base with nightDelay := some 0 }).nightDelay = some 0 ∧
    (base.tick - 0).toNat < 32768 ∧ base.nightDelay = none := by decide +kernel

theorem test_wit_tone : (busy.pos 0).toneRepeat = some 3 ∧ (({ busy with tick := 3 }).tick - 3).toNat < 32768 ∧
    32768 ≤ (busy.tick - 3).toNat := by decide +kernel

theorem test_wit_not_taken : State.reset.link ≠ .up ∧ ([1, 2] : List Byte).length = (2 : Byte).toNat ∧
    extFieldOk [3, 0, 4] [0, 0, 0] ∧ extFieldOk [] [1, 2, 3, 4, 5, 6] ∧ ([] : List Byte).length ≠ 1 ∧
    ([0, 1, 2, 3, 4, 1] : List Byte)[5]? = some 1 ∧ ([0, 1, 2, 3, 4, 1] : List Byte).length ≠ 6 + (1 : Byte).toNat ∧
    ([10, 0, 0, 0, 0, 0] : List Byte).length = 6 ∧ (∃ b ∈ ([10, 0, 0, 0, 0, 0] : List Byte).take 2, 9 < b.toNat) := by
  unfold extFieldOk
  decide +kernel

theorem test_wit_session : State.reset.link ≠ .up ∧ base.link = .up := by decide +kernel

theorem test_wit_declined : base.link = .up ∧ ([] : List Byte).length = (0 : Byte).toNat ∧
    (∃ h : (1 : Byte).toNat < 16, (base.tenant ⟨(1 : Byte).toNat, h⟩).inService = true) ∧
    ¬ (∃ h : (2 : Byte).toNat < 16, (base.tenant ⟨(2 : Byte).toNat, h⟩).inService = true) ∧
    ¬ (∃ h : (16 : Byte).toNat < 16, (base.tenant ⟨(16 : Byte).toNat, h⟩).inService = true) ∧
    (one call).slot 3 = .live call ∧ call.ref = 5 ∧
    (∀ i, State.slot { base with slots := Vector.replicate 128 (.live call) } i ≠ .free) := by decide +kernel

/-- ArriveIsAdmitted: the lowest FREE slot, with 16 digits and with a priority above 3. -/
theorem test_wit_admitted : base.link = .up ∧ (7 : CallRef) ≠ 0 ∧ (List.replicate 16 (9 : Fin 10)).length ≤ 16 ∧
    (3 : Fin 4).val = min 3 (200 : Byte).toNat ∧ (base.tenant 1).inService = true ∧ base.slot 0 = .free ∧
    (∀ j < (0 : Slot), base.slot j ≠ .free) ∧ (∀ e ∈ base.orders, e.slot ≠ 0) ∧ (∀ j, base.slot j = .free) := by
  decide +kernel

theorem test_wit_cleared : talking.link = .up ∧ talking.refsOk ∧ talking.ordersOk ∧
    talking.slot 3 = .live { call with loc := .loop 0 0 } ∧ (0 : Byte) ++ (5 : Byte) = call.ref ∧ (3 : Slot) ∈ talking.window ∧
    (∀ i, base.slot i = .free) ∧ { call with loc := .loop 0 0 }.loops = [(0, 0)] ∧ call.loops = [] :=
  ⟨by decide +kernel, talking_refs, talking_orders, by decide +kernel, by decide, by decide +kernel, by decide +kernel,
    by decide, by decide⟩

/-- The call at an EXTEND loop at a step. -/
def extending (step : Fin 7) : Record := { call with loc := .loop 0 0, step := step, dest := some [3, 0, 4] }

theorem test_wit_dest_state : (onLoop (.extend 3) (extending 3)).slot 3 = .live (extending 3) ∧
    (onLoop (.extend 3) (extending 3)).loop 0 0 = .extend 3 ∧ (onLoop (.extend 3) (extending 3)).link = .up ∧
    (onLoop (.extend 3) (extending 5)).settled 3 (extending 5) ∧
    { call with loc := .extended [3, 0] }.loops = [] ∧ (0 : Byte) ≠ 1 ∧ (0 : Byte) ≠ 2 := by
  unfold State.settled
  decide +kernel

theorem test_wit_dest_state_orders : (one { call with loc := .extended [3, 0] }).ordersOk := by
  have hr : ∀ i, ((one { call with loc := .extended [3, 0] }).slot i).isRetiring = false := by decide +kernel
  refine ⟨by decide, by decide, fun i => ⟨(by intro h; cases h), (by rintro ⟨e, he, -⟩; cases he)⟩,
    (by intro e he; cases he), ?_⟩
  intro i ref h
  have := hr i
  rw [h] at this
  cases this

theorem test_wit_dest_state_refs : (onLoop (.extend 3) (extending 3)).refsOk ∧
    (one { call with loc := .extended [3, 0] }).refsOk ∧ (one { call with loc := .extended [3, 0] }).orders = [] := by
  refine ⟨only_slot_refs (ref := 5) (by decide) (fun x hx => ?_) (by decide +kernel),
    only_slot_refs (ref := 5) (by decide) (fun x hx => ?_) (by decide +kernel), rfl⟩
  · have h3 : (onLoop (.extend 3) (extending 3)).slot 3 = .live (extending 3) := by decide +kernel
    rw [h3] at hx
    exact (eq_of_beq hx).symm
  · have h3 : (one { call with loc := .extended [3, 0] }).slot 3 = .live { call with loc := .extended [3, 0] } := by
      decide +kernel
    rw [h3] at hx
    exact (eq_of_beq hx).symm

/-- The call camped on 30. -/
def camping : State := { one { call with loc := .camped [3, 0] } with camp := [⟨[3, 0], [3]⟩] }

theorem test_wit_ext_free : camping.link = .up ∧ extFieldOk [3, 0] [0, 0, 0, 0] ∧ camping.campedOn [3, 0] = [] ++ 3 :: [] ∧
    camping.settled 3 { call with loc := .camped [3, 0] } ∧ base.campedOn [3, 0] = [] := by
  unfold extFieldOk State.settled
  decide +kernel

theorem test_wit_mismatch : base.link = .up ∧ base.window = [] ∧ talking.answering (sent .hold .none) ∧
    (3 : Byte) ≠ Order.hold.code ∧ (0 : Byte) ++ (6 : Byte) ≠ (sent .hold .none).ref := by
  unfold State.answering
  decide +kernel

theorem test_wit_gone : talking.answering (sent .hold .none) ∧ talking.slot 3 = .live { call with loc := .loop 0 0 } ∧
    State.answering (State.setSlot talking 3 (.retiring 5)) (sent .hold .none) ∧
    (State.setSlot talking 3 (.retiring 5)).slot 3 = .retiring 5 := by
  unfold State.answering
  decide +kernel

theorem test_wit_retry : talking.answering (sent .hold .none) ∧ talking.ordersOk ∧
    talking.orders = [] ++ sent .hold .none :: [] ∧ (1 : Fin 4).val = (sent .hold .none).tries.val + 1 ∧
    { sent .hold .none with tries := 3 }.tries = 3 ∧
    ({ talking with orders := [{ sent .hold .none with state := .resting 0 }] }).orders =
      [] ++ { sent .hold .none with state := .resting 0 } :: [] ∧ (base.tick - 0).toNat < 32768 ∧ base.orders = [] := by
  refine ⟨?_, talking_orders, by decide +kernel⟩
  unfold State.answering
  decide +kernel

/-- The call claimed by L2 of P0, its CONNECT at the head of the window: queued, or parked. -/
def claimed (loc : Location) : Record := { call with loc := loc, claim := some ⟨0, 1, true⟩ }

theorem test_wit_claim : ∀ loc ∈ [Location.queued, .parked 4],
    let s := awaiting (one (claimed loc)) (sent (.connect 0 1) .none)
    (s.link = .up ∧ s.window.head? = some 3 ∧ s.entry? 3 = some (sent (.connect 0 1) .none)) ∧
    s.slot 3 = .live (claimed loc) ∧ (claimed loc).claim = some ⟨0, 1, true⟩ ∧ (claimed loc).held = none := by
  decide +kernel

theorem test_wit_hold : talking.answering (sent .hold .none) ∧ talking.loop 0 0 = .talk 3 ∧
    (∀ o, talking.orbit o ≠ .reserved 3) ∧ call.claim = none ∧ call.held = none ∧
    (∀ x, (talking.setOrbit 4 (.reserved 3)).orbit x = .reserved 3 ↔ x = 4) ∧
    ((0, 1) : Pos × LoopNo) ≠ (0, 0) := by
  unfold State.answering
  decide +kernel

/-- A call at an EXTEND loop with an order at the head of the window, for every order of the extend sequence. -/
theorem test_wit_extend_answers : ∀ o ∈ [Order.split, .ringExt [3, 0, 4], .transfer, .camp [3, 0, 4], .dropDest, .connect 0 0],
    let s := awaiting (onLoop (.extend 3) (extending 6)) (sent o .screened)
    (s.link = .up ∧ s.window.head? = some 3 ∧ s.entry? 3 = some (sent o .screened)) ∧ s.slot 3 = .live (extending 6) ∧
    s.loop 0 0 = .extend 3 ∧ (extending 6).dest = some [3, 0, 4] ∧ (extending 6).claim = none ∧
    (extending 6).mark = none ∧ (extending 6).held = none := by
  decide +kernel

/-- A call on a loop with a CONNECT or RELEASE at the head, and a queued one with a DIVERT. -/
theorem test_wit_loop_answers : ∀ x ∈ [LoopState.talk 3, .held 3, .recalling 3, .locked 3],
    let s := awaiting (onLoop x call) (sent .release .none)
    (s.link = .up ∧ s.window.head? = some 3 ∧ s.entry? 3 = some (sent .release .none)) ∧ s.loop 0 0 = x ∧
    s.slot 3 = .live { call with loc := .loop 0 0 } := by
  decide +kernel

theorem test_wit_divert_answer : (awaiting (one call) (sent (.divert [3, 0]) .overflow)).answering
      (sent (.divert [3, 0]) .overflow) ∧ call.mark = none ∧ call.loc = .queued := by
  unfold State.answering
  decide +kernel

theorem test_wit_camped_answers : ∀ loc ∈ [Location.camped [3, 0], .extended [3, 0], .rescue ⟨0, .connected, none, false⟩,
      .rescue ⟨0, .split, some 4, true⟩],
    let s := awaiting (one { call with loc := loc, timer := some ⟨.campTimeout, 0, true⟩ }) (sent .retrieve .none)
    (s.link = .up ∧ s.window.head? = some 3 ∧ s.entry? 3 = some (sent .retrieve .none)) ∧
    s.slot 3 = .live { call with loc := loc, timer := some ⟨.campTimeout, 0, true⟩ } := by
  decide +kernel

theorem test_wit_tables : (List.replicate 16 (0x41 : Byte)).length = 16 ∧ extFieldOk [3, 0] [0, 0, 0, 0] ∧
    extFieldOk [1, 2, 3, 4, 5, 6] [] := by
  unfold extFieldOk
  decide

theorem test_wit_key_frame : (0x30 : Byte) ≠ 0x31 ∧ ([16, 0, 0, 0, 0, 0, 0, 0, 0] : List Byte).head? = some 16 ∧
    15 < (16 : Byte).toNat := by decide

theorem test_wit_keys_wait : (busy.pos 0).state ≠ .faulted ∧ (busy.pos 0).state ≠ .absent ∧
    2 ≤ ((busy.updPos 0 fun q => { q with keys := [⟨.hold, args 1 []⟩, ⟨.hold, args 1 []⟩] }).pos 0).keys.length ∧
    ((State.atReset 0 false 0).pos 0).state = .faulted ∧ ((State.atReset 0 false 0).pos 1).state = .absent ∧
    (talking.pos 0).keys = [] ∧ (talking.loop 0 0).slot? = some 3 ∧ (∃ e ∈ talking.orders, e.slot = 3) := by
  decide +kernel

/-- InvalidKeysGiveTheErrorTone: one key for each kind of refusal, at a free buffer. -/
theorem test_wit_invalid : base.keyFree 0 .hold (args 7 []) ∧ 6 < (args 7 []).loop.toNat ∧ (args 1 []).loop ≠ 0 ∧
    (args 0 [1]).count ≠ 0 ∧ (args 1 [3]).count.toNat < 2 ∧ (args 0 [0]).count ≠ 2 ∧
    (∃ b ∈ (args 1 [3, 10]).digits.take (args 1 [3, 10]).count.toNat, 9 < b.toNat) ∧
    (∃ b ∈ (args 0 [2, 0]).digits.head?, 1 < b.toNat ∧ (args 0 [2, 0]).count = 2) ∧ (base.pos 1).state = .closed ∧
    (base.pos 0).state ≠ .withdrawn ∧ (onLoop (.held 3) call).loop 0 0 ≠ .idle ∧ (base.pos 0).alerts = [] ∧
    (onLoop (.talk 3) call).voiceFree 0 = false ∧ (∀ i ∈ base.queue, base.eligible 0 i = false) ∧
    base.orbit 4 = .empty ∧ base.loop 0 0 = .idle := by
  unfold State.keyFree
  decide +kernel

theorem test_wit_open_close : (base.pos 1).keys = [] ∧ (args 0 []).loop = 0 ∧ (args 0 []).count = 0 ∧
    (base.pos 1).state = .closed ∧ (base.pos 0).state = .opened ∧ (∀ l, base.loop 0 l = .idle) ∧
    ((base.updPos 0 fun q => { q with state := .withdrawn }).pos 0).state = .withdrawn := by decide +kernel

theorem test_wit_review : ((busy.updPos 0 fun q => { q with keys := [] }).pos 0).keys = [] ∧
    (busy.pos 0).state = .opened ∧ (busy.pos 0).alerts = ⟨.offer, some 0⟩ :: [⟨.exchangeDown, none⟩] := by decide +kernel

theorem test_wit_claim_keys :
    let s := { one call with queue := [3] }
    let a := onLoop (.alerting 3) call
    let k := (one { call with loc := .parked 4 }).setOrbit 4 (.occupied 3)
    (s.pos 0).state = .opened ∧ (s.pos 0).keys = [] ∧ s.voiceFree 0 = true ∧ s.slot 3 = .live call ∧ s.orders = [] ∧
    s.bestOf (s.queue.filter fun j => s.eligible 0 j) = some 3 ∧ a.loop 0 0 = .alerting 3 ∧ a.voiceFree 0 = true ∧
    orbitOf (args 0 [0, 4]) = some 4 ∧ k.orbit 4 = .occupied 3 ∧ k.voiceFree 0 = true ∧ k.loop 0 0 = .idle ∧
    orbitOf (args 0 [1, 9]) = some 19 ∧ (∃ e ∈ (awaiting k (sent .hold .none)).orders, e.slot = 3) := by
  decide +kernel

theorem test_wit_loop_keys : ∀ x ∈ [LoopState.talk 3, .held 3, .recalling 3, .locked 3, .extend 3],
    let s := onLoop x call
    (s.pos 0).state = .opened ∧ (s.pos 0).keys = [] ∧ (args 1 []).loop.toNat = (0 : LoopNo).val + 1 ∧
    s.slot 3 = .live { call with loc := .loop 0 0 } ∧ s.orders = [] ∧ s.loop 0 0 = x := by decide +kernel

theorem test_wit_park : (onLoop (.talk 3) call).orbit 0 = .empty ∧ (args 1 []).count = 0 ∧
    (∀ x < (0 : OrbitNo), (onLoop (.talk 3) call).orbit x ≠ .empty) ∧ orbitOf (args 1 [1, 9]) = some 19 ∧
    (onLoop (.held 3) call).voiceFree 0 = true := by decide +kernel

theorem test_wit_extend_keys : (args 1 [3, 0, 4]).count = BitVec.ofNat 8 ([3, 0, 4] : Digits).length ∧
    (args 1 [3, 0, 4]).digits = ([3, 0, 4] : Digits).map (fun d : Fin 10 => BitVec.ofNat 8 d.val) ++ [0, 0, 0] ∧
    (onLoop (.extend 3) (extending 4)).campRoom [3, 0, 4] = true ∧ (extending 4).step = 4 ∧
    (onLoop (.extend 3) (extending 4)).slot 3 = .live (extending 4) := by decide +kernel

theorem test_wit_carrier : (base.pos 0).carrier = true ∧ (base.pos 0).state ≠ .absent ∧ (base.pos 0).state ≠ .faulted ∧
    (onLoop (.held 3) call).settled 3 { call with loc := .loop 0 0 } ∧
    (∀ q m, ((onLoop (.held 3) call).loop q m).slot? = some 3 → (q, m) = (0, 0)) ∧
    (onLoop (.talk 3) call).loop 0 0 = .talk 3 ∧ ((State.atReset 0 false 0).pos 0).carrier = false ∧
    ((State.atReset 0 false 0).pos 0).state = .faulted := by
  unfold State.settled
  decide +kernel

theorem test_wit_pictures : (base.pos 1).state ≠ .opened ∧ (base.pos 1).state ≠ .withdrawn ∧ (base.pos 0).state = .opened ∧
    base.queuedFigure 0 < 1000 := by decide +kernel

/-! ### States whose holders are sound -/

/-- One LIVE record in slot 3 and no loop but L1 of P0 in use: the loop holds the call, offers it, or claims it. -/
theorem sound_one {s : State} {r : Record} (h3 : s.slot 3 = .live r) (hf : ∀ i, i ≠ 3 → s.slot i = .free)
    (hl : ∀ p l, (p, l) ≠ (0, 0) → s.loop p l = .idle) (ho : ∀ o, s.orbit o = .empty) (hc : s.camp = [])
    (hco : s.campOrders = []) (hw : s.orders = [] ∧ s.window = [] ∨
      ∃ e, s.orders = [e] ∧ s.window = [3] ∧ e.slot = 3 ∧ e.isSent = true ∧ e.ref = r.ref)
    (hx : ((s.loop 0 0).held? = some 3 ∧ r.loc = .loop 0 0 ∧ r.mark = none ∧ r.claim = none ∧ s.queue = []) ∨
      (s.loop 0 0 = .alerting 3 ∧ r.loc = .queued ∧ r.mark = some (0, 0) ∧ r.claim = none ∧ s.orders = [] ∧
        r.timer = none ∧ s.queue = [3]) ∨
      (s.loop 0 0 = .connecting 3 ∧ r.loc = .queued ∧ r.mark = none ∧ r.claim = some ⟨0, 0, true⟩ ∧ s.queue = [3] ∧
        ∃ e ∈ s.orders, e.slot = 3 ∧ e.order.isConnect = true)) :
    s.ordersOk ∧ s.queueOk ∧ s.holdersOk := by
  have live : ∀ i x, s.slot i = .live x → i = 3 ∧ x = r := by
    intro i x h
    by_cases hi : i = 3
    · subst hi; rw [h3] at h; cases h; exact ⟨rfl, rfl⟩
    · rw [hf i hi] at h; cases h
  have quiet : ∀ p l, s.loop p l ≠ .idle → p = 0 ∧ l = 0 := by
    intro p l h
    by_cases hp : (p, l) = (0, 0)
    · exact ⟨congrArg Prod.fst hp, congrArg Prod.snd hp⟩
    · exact absurd (hl p l hp) h
  have voice : ∀ p l, s.holdsVoice p l = true → p = 0 ∧ l = 0 := fun p l h => quiet p l fun hi => by
    simp [State.holdsVoice, State.retrieved, hi, LoopState.onVoicePath] at h
  have ring : ∀ p l, (s.loop p l).isAlerting = true → p = 0 ∧ l = 0 := fun p l h => quiet p l fun hi => by
    simp [hi, LoopState.isAlerting] at h
  refine ⟨⟨?_, ?_, ?_, ?_, ?_⟩, ⟨?_, ?_⟩, ?_, ?_, ?_, ?_, ?_, ?_⟩
  · rcases hw with ⟨h, -⟩ | ⟨e, h, -⟩ <;> simp [h]
  · rcases hw with ⟨-, h⟩ | ⟨e, -, h, -⟩ <;> simp [h]
  · rcases hw with ⟨h, h'⟩ | ⟨e, h, h', hs, ht, -⟩
    · simp [h, h']
    · intro i
      simp only [h, h', List.mem_singleton, exists_eq_left, hs, ht, and_true]
      exact eq_comm
  · rcases hw with ⟨h, -⟩ | ⟨e, h, -, hs, -, hr⟩
    · simp [h]
    · intro x hxe; rw [h, List.mem_singleton] at hxe; subst hxe
      exact .inl ⟨r, by rw [hs, h3], hr.symm⟩
  · intro i ref h
    by_cases hi : i = 3
    · subst hi; rw [h3] at h; cases h
    · rw [hf i hi] at h; cases h
  · rcases hx with ⟨-, -, -, -, h⟩ | ⟨-, -, -, -, -, -, h⟩ | ⟨-, -, -, -, h, -⟩ <;> simp [h]
  · intro i
    rcases hx with ⟨-, hloc, -, -, h⟩ | ⟨-, hloc, -, -, -, -, h⟩ | ⟨-, hloc, -, -, h, -⟩ <;> rw [h]
    · refine ⟨fun h => absurd h (by simp), fun ⟨x, hx, hq⟩ => ?_⟩
      rw [(live i x hx).2, hloc] at hq; cases hq
    all_goals
      refine ⟨fun h => ⟨r, by rw [List.mem_singleton.1 h, h3], hloc⟩, fun ⟨x, hx, _⟩ => ?_⟩
      exact List.mem_singleton.2 (live i x hx).1
  · intro p l
    refine ⟨fun i h => ?_, fun i h => ?_, fun i h => ?_⟩
    all_goals
      obtain ⟨rfl, rfl⟩ := quiet p l (by intro hi; rw [hi] at h; cases h)
      rcases hx with ⟨hx, hr⟩ | ⟨hx, hr⟩ | ⟨hx, hr⟩
    all_goals (first | (rw [h] at hx; cases hx; done) | (rw [hx] at h; cases h; done) | skip)
    · rw [hx] at h; cases h; exact ⟨r, h3, hr.1, hr.2.1⟩
    · rw [hx] at h; cases h; exact ⟨r, ⟨0, 0, true⟩, h3, hr.2.2.1, rfl, rfl⟩
    · rw [hx] at h; cases h; exact ⟨r, h3, hr.1⟩
  · intro i x h
    obtain ⟨rfl, rfl⟩ := live i x h
    rcases hx with ⟨hx, hr, hm, hcl, -⟩ | ⟨hx, hr, hm, hcl, -⟩ | ⟨hx, hr, hm, hcl, -⟩ <;>
      refine ⟨?_, ?_, ?_, ?_, ?_, ?_⟩ <;> simp only [hr, hm, hcl] <;>
      first
        | (intro p l h; cases h; assumption)
        | (intro c h; cases h; assumption)
        | (intros; contradiction)
  · intro i x h
    obtain ⟨rfl, rfl⟩ := live i x h
    rcases hx with ⟨hx, hr, hm, hcl, -⟩ | ⟨hx, hr, hm, hcl, ho, ht, -⟩ | ⟨hx, hr, hm, hcl, -, he⟩
    · simp [hm, hcl]
    · simp [hr, hm, hcl, ho, ht]
    · simp [hr, hm, hcl, he]
  · exact ⟨fun o i h => absurd h (by simp [ho]), fun o i h => absurd h (by simp [ho]),
      fun o o' i h => absurd h (by simp [ho, Orbit.names])⟩
  · simp [State.campOk, hc, hco]
  · intro p l m
    exact ⟨fun h h' => ((voice p l h).2).trans (voice p m h').2.symm, fun h h' => ((ring p l h).2).trans (ring p m h').2.symm⟩
/-- The call on L1 of P0 in the states a loop can be in, at rest and with an order in flight (R86, R88). -/
def loopCases : List (LoopState × Record × Option Order) :=
  [(.talk 3, call, none), (.talk 3, call, some .hold), (.held 3, call, none), (.held 3, call, some .release),
    (.recalling 3, call, none), (.recalling 3, call, some (.connect 0 0)), (.extend 3, extending 3, none),
    (.extend 3, extending 4, none), (.extend 3, extending 5, none), (.extend 3, extending 6, some .transfer),
    (.locked 3, call, none), (.locked 3, call, some .release)]

/-- The state of a case. -/
def caseState (c : LoopState × Record × Option Order) : State :=
  match c.2.2 with
  | none => onLoop c.1 c.2.1
  | some o => awaiting (onLoop c.1 c.2.1) (sent o .none)

/-- The queued call offered on L1 of P0, and claimed by it. -/
def offered : State := { (one { call with mark := some (0, 0) }).setLoop 0 0 (.alerting 3) with queue := [3] }
def granted : State :=
  { awaiting ((one { call with claim := some ⟨0, 0, true⟩ }).setLoop 0 0 (.connecting 3)) (sent (.connect 0 0) .none) with
    queue := [3] }

theorem case_slot (c : LoopState × Record × Option Order) (i : Slot) :
    (caseState c).slot i = (one { c.2.1 with loc := .loop 0 0 }).slot i := by
  unfold caseState
  split <;> rfl

theorem one_free (r : Record) (i : Slot) (h : i ≠ 3) : (one r).slot i = .free := by
  have hf : ∀ j, base.slot j = .free := by decide +kernel
  exact (slot_setSlot_ne base 3 i _ (Ne.symm h)).trans (hf i)

theorem cases_shape : ∀ c ∈ loopCases,
    (∀ p l, (p, l) ≠ (0, 0) → (caseState c).loop p l = .idle) ∧ (∀ o, (caseState c).orbit o = .empty) ∧
    (caseState c).camp = [] ∧ (caseState c).campOrders = [] ∧
    (caseState c).orders = c.2.2.toList.map (fun o => sent o .none) ∧ (caseState c).window = c.2.2.toList.map (fun _ => 3) ∧
    c.2.1.ref = 5 ∧ ((caseState c).loop 0 0).held? = some 3 ∧ c.2.1.mark = none ∧ c.2.1.claim = none ∧
    (caseState c).queue = [] := by decide +kernel

theorem cases_sound : ∀ c ∈ loopCases, (caseState c).ordersOk ∧ (caseState c).queueOk ∧ (caseState c).holdersOk := by
  intro c hc
  obtain ⟨hl, ho, hc, hco, hor, hw, hr, hx, hm, hcl, hq⟩ := cases_shape c hc
  refine sound_one (r := { c.2.1 with loc := .loop 0 0 }) ((case_slot c 3).trans (slot_setSlot_self base 3 _))
    (fun i hi => (case_slot c i).trans (one_free _ i hi)) hl ho hc hco ?_ (.inl ⟨hx, rfl, hm, hcl, hq⟩)
  rcases hoo : c.2.2 with - | o
  · exact .inl ⟨by rw [hor, hoo]; rfl, by rw [hw, hoo]; rfl⟩
  · exact .inr ⟨sent o .none, by rw [hor, hoo]; rfl, by rw [hw, hoo]; rfl, rfl, rfl, hr.symm⟩

theorem offered_sound : offered.ordersOk ∧ offered.queueOk ∧ offered.holdersOk :=
  sound_one (r := { call with mark := some (0, 0) }) (by decide +kernel) (by decide +kernel) (by decide +kernel)
    (by decide +kernel) rfl (by decide +kernel) (.inl ⟨rfl, rfl⟩) (.inr (.inl (by decide +kernel)))

theorem granted_sound : granted.ordersOk ∧ granted.queueOk ∧ granted.holdersOk :=
  sound_one (r := { call with claim := some ⟨0, 0, true⟩ }) (by decide +kernel) (by decide +kernel) (by decide +kernel)
    (by decide +kernel) rfl (by decide +kernel) (.inr ⟨_, rfl, rfl, rfl, rfl, rfl⟩) (.inr (.inr (by decide +kernel)))

/-- StepKeepsQueueOk, on a state with an order in flight whose response is taken. -/
theorem test_wit_keeps_holders : ∃ s t : State, s.ordersOk ∧ s.queueOk ∧ s.holdersOk ∧ step s = .next t :=
  ⟨{ granted with pending := [.responseDone [1, 0, 5, 1, 0]] }, _, granted_sound.1, granted_sound.2.1, granted_sound.2.2, rfl⟩

theorem test_wit_carrier_loops : (∀ c ∈ loopCases, ((caseState c).pos 0).carrier = true ∧
      ((caseState c).pos 0).state = .opened ∧ (caseState c).loop 0 0 = c.1 ∧ ((caseState c).loop 0 0).slot? = some 3) ∧
    (offered.pos 0).carrier = true ∧ (offered.pos 0).state = .opened ∧ (offered.loop 0 0).slot? = some 3 ∧
    (granted.pos 0).carrier = true ∧ (granted.pos 0).state = .opened ∧ (granted.loop 0 0).slot? = some 3 ∧
    ((base.updPos 0 fun q => { q with state := .faulted }).pos 0).state = .faulted ∧
    ((State.atReset 0 false 0).pos 1).state = .absent ∧
    ((base.updPos 0 fun q => { q with carrier := false }).pos 0).carrier = false := by decide +kernel

/-! ### Witnesses of single clauses -/

/-- FramesAreReadBackOrDiscarded: a timed-out receiver, a character on the line, response and destination bytes, an unlisted
type, and extension lengths at both ends. -/
theorem test_wit_frame_commands :
    Rx.timedOut ({ base with xrx := .started 2 }).xrx = true ∧ ({ base with xrx := .started 2 }).pending = [] ∧
    ({ base with xline := true :: charLevels 0x7E }).xrx.timedOut = false ∧
    takeChar ({ base with xline := true :: charLevels 0x7E }).xline = some (0x7E, []) ∧
    (Rx.hunting.feed 0x7E).1 ≠ .hunting ∧ (0 : Byte) = 0 ∧ 13 < (14 : Byte).toNat ∧ ([] : Digits).length + 6 = 6 ∧
    ([3, 0, 4, 0, 0, 0] : Digits).length + 0 = 6 := by decide +kernel

/-- The call with a held expiry, its timer spent. -/
def holding (pu : Purpose) (r : Record) : Record := { r with held := some pu, timer := some ⟨pu, 0, true⟩ }

/-- ExpiryIsHeldOrDelivered, settlement: a held expiry at the response of each order it may wait for. -/
theorem test_wit_settled :
    (∀ c ∈ [(Purpose.campTimeout, Location.camped [3, 0], Order.ringExt [3, 0]), (.aging, .queued, .divert [3, 0]),
        (.holdRecall, .loop 0 0, .connect 0 0), (.holdRecall, .loop 0 0, .release), (.escalate, .loop 0 0, .release)],
      let r := holding c.1 { call with loc := c.2.1 }
      let s := (awaiting (one r) (sent c.2.2 .none)).setLoop 0 0 (if c.1 = .escalate then .recalling 3 else .held 3)
      (s.link = .up ∧ s.window.head? = some 3 ∧ s.entry? 3 = some (sent c.2.2 .none)) ∧ s.slot 3 = .live r ∧
      r.mark = none ∧ r.claim = none ∧ r.held = some c.1 ∧ r.timer = some ⟨c.1, 0, true⟩ ∧ s.inPlace r c.1 = true ∧
      base.inPlace { r with loc := .rescue ⟨0, .split, none, false⟩ } c.1 = false) ∧
    (let r := holding .parkRecall { call with loc := .parked 4, claim := some ⟨0, 1, true⟩ }
     let s := awaiting (one r) (sent (.connect 0 1) .none)
     (s.link = .up ∧ s.window.head? = some 3 ∧ s.entry? 3 = some (sent (.connect 0 1) .none)) ∧ s.slot 3 = .live r) ∧
    (1 : Fin 16).val = min 15 (call.aging.val + 1) ∧ (0 : Byte) ≠ 2 := by decide +kernel

/-- MessagesNotTakenBringANotice: a tenant of 16, and extension fields of one digit, of seven and with a digit of 10. -/
theorem test_wit_malformed : (List.replicate 23 (0 : Byte)).length = 23 ∧ (List.replicate 6 (0 : Byte)).length = 6 ∧
    15 < (16 : Byte).toNat ∧ (1 : Byte).toNat = 1 ∧ 6 < (7 : Byte).toNat ∧
    (∃ b ∈ ([0, 10, 0, 0, 0, 0] : List Byte).take (2 : Byte).toNat, 9 < b.toNat) := by decide +kernel

/-- ExtensionFreeRingsTheFirstCampedCall, before LINK_UP. -/
theorem test_wit_ext_free_down : State.reset.link ≠ .up ∧ ([3, 0] : Digits) ≠ [] ∧ extFieldOk [3, 0] [0, 0, 0, 0] := by
  unfold extFieldOk
  decide +kernel

/-- Two loops of a position lose one call: its own and that of a waiting Pickup. -/
theorem test_wit_gone_twice : { call with loc := .loop 0 0, claim := some ⟨0, 1, false⟩ }.loopsAt 0 = [0, 1] ∧
    { call with loc := .loop 0 0, claim := some ⟨2, 1, false⟩ }.loopsAt 2 = [1] ∧
    (sent .release .none).order = .release ∧ (sent .hold .none).order ≠ .release ∧
    (∀ p l j, { call with loc := .loop 0 0 }.loc = .loop p l → (onLoop (.held 3) call).loop p l ≠ .locked j) := by
  decide +kernel

/-- HoldAndParkAreAnswered: a park HOLD on which a Pickup of P1 waits. -/
theorem test_wit_hold_dropped :
    let r := { call with loc := .loop 0 0, claim := some ⟨1, 0, false⟩ }
    let s := ((awaiting (onLoop (.talk 3) r) (sent .hold .none)).setOrbit 4 (.reserved 3)).setLoop 1 0 (.connecting 3)
    (s.link = .up ∧ s.window.head? = some 3 ∧ s.entry? 3 = some (sent .hold .none)) ∧ s.slot 3 = .live r ∧
    s.loop 0 0 = .talk 3 ∧ r.held = none ∧ (1 : Pos) ≠ 0 ∧
    (∀ x y, s.orbit x = .reserved 3 → s.orbit y = .reserved 3 → x = y) := by decide +kernel

/-- RescuedCallsAreAnswered: every order of a rescue set member, and a Pickup that waits for its park HOLD. -/
theorem test_wit_rescue_orders :
    (∀ o ∈ [Order.connect 0 0, .hold, .release, .split, .ringExt [3, 0], .transfer, .camp [3, 0], .dropDest],
      ∀ m ∈ [Rescue.mk 0 .connected none false, ⟨0, .split, none, false⟩, ⟨0, .connected, some 4, false⟩,
        ⟨0, .connected, none, true⟩],
      let r := { call with loc := .rescue m, dest := some [3, 0] }
      let s := awaiting (one r) (sent o .screened)
      (s.link = .up ∧ s.window.head? = some 3 ∧ s.entry? 3 = some (sent o .screened)) ∧ s.slot 3 = .live r ∧
      r.claim = none ∧ r.mark = none ∧ r.held = none) ∧
    let r := { call with loc := .rescue ⟨0, .connected, some 4, false⟩, claim := some ⟨1, 0, false⟩ }
    let s := ((awaiting (one r) (sent .hold .none)).setOrbit 4 (.reserved 3)).setLoop 1 0 (.connecting 3)
    (s.link = .up ∧ s.window.head? = some 3 ∧ s.entry? 3 = some (sent .hold .none)) ∧ s.slot 3 = .live r := by
  decide +kernel

/-- KeyFrameIsItsKey: Open at a CLOSED position and Hold at a TALK loop. -/
theorem test_wit_key_frames : (List.replicate 6 (0 : Byte)).length = 6 ∧ (base.pos 1).keys = [] ∧
    (base.pos 1).state = .closed ∧ ((onLoop (.talk 3) call).pos 0).keys = [] ∧
    ((onLoop (.talk 3) call).pos 0).state = .opened ∧ (onLoop (.talk 3) call).loop 0 0 = .talk 3 ∧
    (onLoop (.talk 3) call).settled 3 { call with loc := .loop 0 0 } := by
  unfold State.settled
  decide +kernel

/-- LampsAndDisplayFollowTheState: the focus loop by the voice path, by an offer, and none with and without a note. -/
theorem test_wit_display :
    (∀ x ∈ [LoopState.talk 3, .extend 3],
      (onLoop x call).holdsVoice 0 0 = true ∧ (∀ m, (onLoop x call).holdsVoice 0 m = true → m = 0)) ∧
    (∀ m, offered.holdsVoice 0 m ≠ true) ∧ offered.loop 0 0 = .alerting 3 ∧
    (∀ m j, offered.loop 0 m = .alerting j → m = 0) ∧ (offered.tenant call.tenant).tag.length = 16 ∧
    offered.slot 3 = .live { call with mark := some (0, 0) } ∧ (∀ l, base.holdsVoice 0 l ≠ true) ∧
    (∀ l j, base.loop 0 l ≠ .alerting j) ∧ (base.pos 0).note = none ∧
    ((base.updPos 0 fun q => { q with note := some ⟨[], lockedText⟩ }).pos 0).note = some ⟨[], lockedText⟩ := by
  decide +kernel

/-! ### Two rules where an answer and its loop meet -/

/-- R82, R16: a RELEASE of a LOCKED loop refused with NO_CALL leaves the loop IDLE without an alert; at TALK it gives CALLER_GONE
(R131). -/
theorem test_locked_no_call :
    let u := after (exec (.responseRefused [10, 0, 5, 2, 2]) (awaiting (onLoop (.locked 3) call) (sent .release .none)))
    let v := after (exec (.responseRefused [10, 0, 5, 2, 2]) (awaiting (onLoop (.talk 3) call) (sent .release .none)))
    u.loop 0 0 = .idle ∧ u.slot 3 = .free ∧ (u.pos 0).alerts = [] ∧ (v.pos 0).alerts = [⟨.callerGone, some 0⟩] := by
  decide +kernel
/-- R90: a Pickup that waited for the park HOLD of a failed position is dropped when the HOLD is refused. -/
theorem test_rescue_pickup_dropped :
    let r := { call with loc := .rescue ⟨1, .connected, some 4, false⟩, claim := some ⟨0, 0, false⟩ }
    let s := ((awaiting (one r) (sent .hold .none)).setOrbit 4 (.reserved 3)).setLoop 0 0 (.connecting 3)
    let u := after (exec (.responseRefused [2, 0, 5, 2, 0]) s)
    u.loop 0 0 = .idle ∧ u.orbit 4 = .empty ∧ u.xout = [.order .release 5] := by decide +kernel

/-- FramesAreReadBackOrDiscarded: a character and a timed-out frame at P1, with nothing before it. -/
theorem test_wit_position_turn :
    let s := base.updPos 1 fun q => { q with line := true :: charLevels 0x7E }
    let t := base.updPos 1 fun q => { q with rx := .started 2 }
    (s.pos 1).state ≠ .absent ∧ (s.pos 0).rx.timedOut = false ∧ takeChar (s.pos 0).line = none ∧
    (s.pos 1).rx.timedOut = false ∧ takeChar (s.pos 1).line = some (0x7E, []) ∧ (t.pos 1).rx.timedOut = true := by
  decide +kernel

/-- The call in TALK with its HOLD in flight, and a Release waiting behind it. -/
def keyed : State := talking.updPos 0 fun q => { q with keys := [⟨.release, args 1 []⟩] }

/-- EndOfEventIsComplete: a waiting key in a sound state, and a lone key that does not wait. -/
theorem test_wit_waiting_keys : keyed.waitsAt 0 ⟨.release, args 1 []⟩ ∧
    (keyed.ordersOk ∧ keyed.queueOk ∧ keyed.holdersOk) ∧ (∀ q, q ≠ 0 → (keyed.pos q).keys = []) ∧
    ¬ base.waitsAt 0 ⟨.withdraw, args 0 []⟩ ∧ (keyed.pos 0).state = .opened := by
  refine ⟨⟨rfl, 0, 3, by decide, by decide +kernel, by decide +kernel⟩, ?_, by decide +kernel, fun h => ?_, by decide +kernel⟩
  · exact sound_one (r := { call with loc := .loop 0 0 }) (by decide +kernel) (fun i hi => one_free _ i hi)
      (by decide +kernel) (by decide +kernel) rfl (by decide +kernel) (.inr ⟨_, rfl, rfl, rfl, rfl, rfl⟩)
      (.inl (by decide +kernel))
  · exact absurd h.1 (by decide)

/-- OfferGoesToTheFirstPositionInRotation, no offer: the call waits while P0 is CLOSED too. -/
theorem test_wit_no_offer :
    let s := { (one call).updPos 0 (fun q => { q with state := .closed }) with queue := [3] }
    s.nextOffer = none ∧ s.loop 1 0 = .idle ∧ (∀ m, s.loop 1 m = .idle) ∧ (3 : Slot) ∈ s.queue ∧ s.slot 3 = .live call ∧
    s.orders = [] ∧ (s.pos 1).tenantMask.getLsbD call.tenant.val = true ∧ call.kind = .new := by decide +kernel

/-- The camp-on lists: no extension in two entries; room by an entry, room without one, and a full list (R101). -/
theorem test_wit_room : (camping.camp.map CampEntry.ext).Nodup ∧ camping.hasRoom [3, 0] ∧ camping.hasRoom [3, 1] ∧
    ¬ State.hasRoom { camping with camp := [⟨[3, 0], [3, 4, 5, 6]⟩] } [3, 0] := by
  simp only [State.hasRoom]
  refine ⟨by decide, ⟨fun _ => by decide, fun h => absurd ⟨_, .head _, rfl⟩ h⟩, ⟨fun _ => by decide, fun _ _ => by decide⟩,
    fun h => absurd (h.1 (.inl ⟨_, .head _, rfl⟩)) (by decide)⟩

/-- 9.6: P2 with an OFFER entry for L2 and QUEUE_THRESHOLD, the repeats armed at 2,070; with the OFFER entry gone they stay armed
(step 5), and with the last sounding entry gone they are disarmed (step 7). -/
def busyMinute : State := { base with tick := 2055 }.updPos 2 fun q => { q with
  state := .opened, alerts := [⟨.offer, some 1⟩, ⟨.queueThreshold, none⟩], toneRepeat := some 2070 }

theorem test_repeats :
    ((busyMinute.loopConnecting 2 1 3).view 2 = ⟨[⟨.queueThreshold, none⟩], some 2070⟩ ∧
      busyMinute.viewWithoutKind 2 1 .offer (busyMinute.view 2) = ⟨[⟨.queueThreshold, none⟩], some 2070⟩) ∧
    busyMinute.viewKept 2 (fun _ => false) (busyMinute.view 2) = ⟨[], none⟩ ∧
    busyMinute.viewRaised 2 .orderFailed 1 ⟨[⟨.queueThreshold, none⟩], some 2070⟩ =
      ⟨[⟨.queueThreshold, none⟩, ⟨.orderFailed, some 1⟩], some 2070⟩ ∧
    busyMinute.viewRaised 2 .offer 0 ⟨[], none⟩ = ⟨[⟨.offer, some 0⟩], some 2085⟩ := by decide +kernel

/-- EndOfEventIsComplete and OffersAndSendingLeaveTheRest: an item that stands once in the queue of an equipped position and
differs; a position that receives no offer, and no offer at all. -/
theorem test_wit_items : (State.reset.pos 0).state ≠ .absent ∧
    TxEntry.item (.lamp 8) false ∈ (State.reset.finishOffers.pos 0).txq ∧
    (∀ x, ((State.reset.pos 0).txq.filter fun e => e.isItem x).length ≤ 1) ∧
    (base.finishOffers.pos 1).loops = (base.pos 1).loops ∧ base.nextOffer = none :=
  ⟨by decide +kernel, by decide +kernel, fun _ => List.length_filter_le _ _, by decide +kernel, by decide +kernel⟩

/-- ExpiryIsHeldOrDelivered: a refused claim of a queued call with its AGING expiry held (2.8). -/
theorem test_wit_settled_claim :
    let r := holding .aging { call with claim := some ⟨0, 1, true⟩ }
    let s := (awaiting (one r) (sent (.connect 0 1) .none)).setLoop 0 1 (.connecting 3)
    (s.link = .up ∧ s.window.head? = some 3 ∧ s.entry? 3 = some (sent (.connect 0 1) .none)) ∧ s.slot 3 = .live r ∧
    r.mark = none ∧ r.held = some .aging ∧ r.timer = some ⟨.aging, 0, true⟩ ∧ r.loc = .queued ∧
    (1 : Fin 16).val = min 15 (r.aging.val + 1) ∧ (1 : Byte) ≠ 2 ∧ (0 : Byte) ≠ 2 := by decide +kernel

/-- OfferExpiryWithdrawsThePosition: P0 OPEN with the kind latched, and P0 with an AUTO_WITHDRAWN entry already. -/
theorem test_wit_withdrawn : (base.pos 0).state = .opened ∧
    (base.pos 0).latchMask.getLsbD AlertKind.autoWithdrawn.bit = true ∧ (base.pos 0).alerts = [] ∧
    ∃ a ∈ (base.updPos 0 fun q => { q with alerts := [⟨.autoWithdrawn, none⟩] }).viewWithout 0 0
      ⟨[⟨.autoWithdrawn, none⟩], none⟩ |>.alerts, a.kind = .autoWithdrawn := by decide +kernel

/-- CarrierLossAndReturn: the HELD call of a failed position brings its tenant to a threshold of 1 at P1, which has no
QUEUE_THRESHOLD entry, and not at P2, which is CLOSED. -/
def reaching : State :=
  { (onLoop (.held 3) call).updPos 1 fun q => { q with state := .opened } with
    tenants := base.tenants.set 1 { Tenant.initial with inService := true, threshold := 1 } }

theorem test_wit_rescue_threshold : reaching.ordersOk ∧ reaching.queueOk ∧ reaching.holdersOk ∧ (reaching.pos 0).carrier = true ∧
    (reaching.pos 0).state = .opened ∧ reaching.rescueReaches 0 1 ∧ (reaching.pos 1).alerts = [] ∧
    ¬ reaching.rescueReaches 0 2 := by
  obtain ⟨ho, hq, hh⟩ := sound_one (s := reaching) (r := { call with loc := .loop 0 0 }) (by decide +kernel)
    (fun i hi => one_free _ i hi) (by decide +kernel) (by decide +kernel) rfl (by decide +kernel) (.inl ⟨rfl, rfl⟩)
    (.inl (by decide +kernel))
  refine ⟨ho, hq, hh, by decide +kernel, by decide +kernel, ⟨0, 3, 1, by decide +kernel⟩, by decide +kernel, ?_⟩
  rintro ⟨l, i, t, -, -, -, -, -, h, -⟩
  exact absurd h (by decide +kernel)

/-- EndOfEventIsComplete, two keys in one buffer: P1's Withdraw does not wait and stands before a Hold, while P0's Release waits. -/
def twoKeys : State :=
  keyed.updPos 1 fun q => { q with state := .opened, keys := [⟨.withdraw, args 0 []⟩, ⟨.hold, args 1 []⟩] }

theorem test_wit_two_keys : (twoKeys.ordersOk ∧ twoKeys.queueOk ∧ twoKeys.holdersOk) ∧
    (twoKeys.pos 1).keys = [⟨.withdraw, args 0 []⟩, ⟨.hold, args 1 []⟩] ∧ ¬ twoKeys.waitsAt 1 ⟨.withdraw, args 0 []⟩ ∧
    (twoKeys.pos 1).state = .opened ∧ (twoKeys.pos 0).keys = [⟨.release, args 1 []⟩] ∧
    twoKeys.waitsAt 0 ⟨.release, args 1 []⟩ ∧ ∀ q < (1 : Pos), q = 0 :=
  ⟨sound_one (r := { call with loc := .loop 0 0 }) (by decide +kernel) (fun i hi => one_free _ i hi) (by decide +kernel)
      (by decide +kernel) rfl (by decide +kernel) (.inr ⟨_, rfl, rfl, rfl, rfl, rfl⟩) (.inl (by decide +kernel)),
    by decide +kernel, fun h => absurd h.1 (by decide), by decide +kernel, by decide +kernel,
    ⟨rfl, 0, 3, by decide, by decide +kernel, by decide +kernel⟩, by decide⟩

/-- UnansweredHeadFailsTheLink with a waiting loop key: it gives the error tone, and EXCHANGE_DOWN then sounds BEEP (R70, R160). -/
def failing : State := { keyed with tick := 19 }

theorem test_wit_failure_keys : failing.carriersAgree 0xF ∧ failing.answering (sent .hold .none) ∧
    (failing.tick + 1 - 20).toNat < 32768 ∧ (∀ k ∈ (failing.pos 0).keys, KeyKind.isLoopKey k.kind = true) ∧
    ((after (exec .orderTimeout (after (exec (.tick 0xF) failing)))).pos 0).txq.filter TxEntry.isTone =
      [.tone .error, .tone .beep] := by
  unfold State.carriersAgree State.answering
  decide +kernel

end Sys2Proof.Tests
end

section
/-! PROOFS. The rank of R41. -/

namespace Sys2Proof.Machine

/-- R41's four terms added up, before the ceiling is applied. -/
def State.rankSum (s : State) (r : Record) : Nat :=
  (s.tenant r.tenant).classBase + 16 * r.prio.val + (if r.kind = .new then 0 else 40) +
    (s.tenant r.tenant).agingWeight * r.aging.val

theorem rank_eq_min_rankSum (s : State) (r : Record) : s.rank r = min 255 (s.rankSum r) := by
  unfold State.rank State.rankSum
  match r.kind with
  | .new => rfl
  | .recall _ => rfl

/-- The extremes are 63 for the class base, priority class 3, a RECALL, and weight 8 at 15 aging steps: 63 + 48 + 40 + 120. -/
theorem rankSum_le {s : State} {r : Record} (hbase : (s.tenant r.tenant).classBase ≤ 63)
    (hweight : (s.tenant r.tenant).agingWeight ≤ 8) : s.rankSum r ≤ 271 := by
  have hprio : r.prio.val ≤ 3 := Fin.is_le r.prio
  have hrecall : (if r.kind = .new then 0 else 40) ≤ 40 := by split <;> decide
  have haging : (s.tenant r.tenant).agingWeight * r.aging.val ≤ 8 * 15 := Nat.mul_le_mul hweight (Fin.is_le r.aging)
  unfold State.rankSum
  omega

end Sys2Proof.Machine

namespace Sys2Proof
open Sys2Proof.Machine

/-- Settles O14: the model takes the minimum of 255 and R41's sum, and the sum is bounded term by term. -/
theorem rankIsTheSumOfFourTerms : Obligations.RankIsTheSumOfFourTerms := by
  intro s r
  have hceiling : s.rank r = if s.rankSum r > 255 then 255 else s.rankSum r := by
    rw [rank_eq_min_rankSum]
    split <;> omega
  exact ⟨hceiling, rankSum_le⟩

end Sys2Proof
end

section
/-! PROOFS. EXT_FREE of chapter 6: its extension field read back, the camped call it serves, and its outcome by the link state. -/

namespace Sys2Proof.Decode

theorem digit?_ofNat (d : Fin 10) : digit? (BitVec.ofNat 8 d.val) = some d := by
  have hval : (BitVec.ofNat 8 d.val).toNat = d.val := by simp only [BitVec.toNat_ofNat]; omega
  simp [digit?, hval]

theorem digits?_map_ofNat (ext : Digits) : digits? (ext.map fun d : Fin 10 => BitVec.ofNat 8 d.val) = some ext := by
  induction ext with
  | nil => rfl
  | cons d ds ih => simp only [List.map_cons, digits?, digit?_ofNat, ih]

/-- A present extension is read back from its count and digits, whatever bytes fill the field (R150, R145). -/
theorem parseExtension_digits {ext : Digits} (pad : List Byte) (hlow : 2 ≤ ext.length) (hhigh : ext.length ≤ 6) :
    parseExtension (BitVec.ofNat 8 ext.length) (ext.map (fun d : Fin 10 => BitVec.ofNat 8 d.val) ++ pad) =
      some (some ext) := by
  have hcount : (BitVec.ofNat 8 ext.length).toNat = ext.length := by simp only [BitVec.toNat_ofNat]; omega
  have hpresent : BitVec.ofNat 8 ext.length ≠ 0 := fun h => by
    have hzero : (BitVec.ofNat 8 ext.length).toNat = 0 := by rw [h]; rfl
    omega
  have hallowed : ¬ (ext.length = 1 ∨ 6 < ext.length) := by omega
  have htake : (ext.map (fun d : Fin 10 => BitVec.ofNat 8 d.val) ++ pad).take ext.length =
      ext.map fun d : Fin 10 => BitVec.ofNat 8 d.val := List.take_left' (List.length_map _)
  rw [parseExtension, if_neg hpresent, hcount, if_neg hallowed, htake, digits?_map_ofNat]
  rfl

end Sys2Proof.Decode

namespace Sys2Proof.Machine

/-! ### The camped call that is served (R117) -/

theorem campedNext_eq_find? (s : State) (ext : Digits) :
    s.campedNext ext = (s.campedOn ext).find? fun i => !s.inFlight i := by
  unfold State.campedNext State.campedOn
  cases s.camp.find? fun e => e.ext == ext <;> rfl

/-- The first call of the list with no entry is next when each call before it has one. -/
theorem campedNext_eq_some {s : State} {ext : Digits} {xs ys : List Slot} {i : Slot}
    (hlist : s.campedOn ext = xs ++ i :: ys) (hbefore : ∀ j ∈ xs, s.inFlight j = true) (hfree : s.inFlight i = false) :
    s.campedNext ext = some i := by
  rw [campedNext_eq_find?, List.find?_eq_some_iff_append]
  exact ⟨by simp [hfree], xs, ys, hlist, fun j hj => by simp [hbefore j hj]⟩

theorem campedNext_eq_none {s : State} {ext : Digits} (hall : ∀ j ∈ s.campedOn ext, s.inFlight j = true) :
    s.campedNext ext = none := by
  rw [campedNext_eq_find?, List.find?_eq_none]
  exact fun j hj => by simp [hall j hj]

theorem inFlight_of_settled {s : State} {i : Slot} {r : Record} (hr : s.settled i r) : s.inFlight i = false :=
  (inFlight_eq_false s i).2 hr.2

theorem extensionFree_of_next {s : State} {ext : Digits} {i : Slot} {r : Record} (hnext : s.campedNext ext = some i)
    (hr : s.settled i r) : s.extensionFree ext =
      State.finishOrders { s with orders := s.orders ++ [Entry.fresh i r (.ringExt ext) .none] } := by
  simp only [State.extensionFree, hnext]
  rw [issue_settled ((record?_eq_some s i).2 hr.1) (inFlight_of_settled hr)]
  rfl

theorem extensionFree_of_none {s : State} {ext : Digits} (hnext : s.campedNext ext = none) : s.extensionFree ext = s := by
  simp only [State.extensionFree, hnext]

/-! ### EXT_FREE: its body, and its outcome by the link state (R140) -/

/-- A well-formed EXT_FREE body carries its extension (R150). -/
theorem parseExtFree_extField {ext : Digits} {pad : List Byte} (hne : ext ≠ []) (hok : extFieldOk ext pad) :
    Decode.parseExtFree (extField ext pad) = some ext := by
  obtain ⟨hone, hsum⟩ := hok
  have hpos : 0 < ext.length := List.length_pos_iff.2 hne
  have hlen : (ext.map (fun d : Fin 10 => BitVec.ofNat 8 d.val) ++ pad).length = 6 := by
    rw [List.length_append, List.length_map, hsum]
  simp only [extField, List.cons_append, Decode.parseExtFree]
  rw [if_pos hlen, Decode.parseExtension_digits pad (by omega) (by omega)]
  rfl

/-- The message reaches its action or brings the notice by the link state alone. -/
theorem exec_extFree {ext : Digits} {pad : List Byte} (hne : ext ≠ []) (hok : extFieldOk ext pad) (s : State) :
    exec (.extFree (extField ext pad)) s = .next (if s.link = .up then s.extensionFree ext else s.noticed 0x06 0) := by
  change execExtFree (extField ext pad) s = _
  rw [execExtFree, parseExtFree_extField hne hok]
  rfl

end Sys2Proof.Machine

namespace Sys2Proof
open Sys2Proof.Machine

/-- Settles O36: the body is read back, and the call served is the first of the camp-on list that `find?` takes. -/
theorem extensionFreeRingsTheFirstCampedCall : Obligations.ExtensionFreeRingsTheFirstCampedCall := by
  refine ⟨fun s ext pad hdown hne hok => ?notUp, fun s ext pad hup hne hok =>
    ⟨fun xs ys i r hlist hbefore hr => ?rung, fun hall => ?ignored⟩⟩
  case notUp => rw [exec_extFree hne hok, if_neg hdown]
  case rung =>
    have hnext : s.campedNext ext = some i := campedNext_eq_some hlist
      (fun j hj => (inFlight_iff s j).2 (hbefore j hj)) (inFlight_of_settled hr)
    rw [exec_extFree hne hok, if_pos hup, extensionFree_of_next hnext hr]
  case ignored =>
    have hnext : s.campedNext ext = none := campedNext_eq_none fun j hj => (inFlight_iff s j).2 (hall j hj)
    rw [exec_extFree hne hok, if_pos hup, extensionFree_of_none hnext]

end Sys2Proof
end

section
/-! PROOFS. The wanted picture of chapter 9: characters and figures, the focus loop, and the two lines it gives. -/

namespace Sys2Proof.Machine

/-! ### Characters (R153, R158) -/

theorem digitChar_of_lt {n : Nat} (h : n < 10) : digitChar n = BitVec.ofNat 8 (48 + n) := by
  rw [digitChar, Nat.mod_eq_of_lt h]

theorem digitChars_eq_numeral (ds : Digits) : digitChars ds = numeral ds :=
  List.map_congr_left fun d _ => digitChar_of_lt d.isLt

/-- Below 1000 the three places are the decimal digits, leading zeros being spaces. -/
theorem figure_eq (n : Nat) : figure n =
    if n < 10 then [0x20, 0x20, BitVec.ofNat 8 (48 + n)]
    else if n < 100 then [0x20, BitVec.ofNat 8 (48 + n / 10), BitVec.ofNat 8 (48 + n % 10)]
    else [BitVec.ofNat 8 (48 + n / 100 % 10), BitVec.ofNat 8 (48 + n / 10 % 10), BitVec.ofNat 8 (48 + n % 10)] := by
  unfold figure
  by_cases hone : n < 10
  · rw [if_pos hone, if_pos hone, digitChar_of_lt hone]
    rfl
  rw [if_neg hone, if_neg hone]
  by_cases htwo : n < 100
  · rw [if_pos htwo, if_pos htwo, digitChar_of_lt (Nat.div_lt_of_lt_mul htwo)]
    rfl
  · rw [if_neg htwo, if_neg htwo]
    rfl

theorem padTo_of_length {n : Nat} {t : List Byte} (h : t.length = n) : padTo n t = t := List.take_left' h

theorem padTo_nil (n : Nat) : padTo n [] = List.replicate n 0x20 := by
  rw [padTo, List.nil_append, List.take_of_length_le (Nat.le_of_eq List.length_replicate)]
  rfl

/-! ### Lamps (R157) -/

theorem wantedLamp_loop (s : State) (p : Pos) (l : LoopNo) :
    s.wantedLamp p ⟨l.val, Nat.lt_trans l.isLt (by decide)⟩ = (s.loop p l).cadence := by
  rw [State.wantedLamp, dif_pos l.isLt]

theorem wantedLamp_alert (s : State) (p : Pos) :
    s.wantedLamp p 7 = if (s.pos p).alerts = [] then .off else .steady := by
  change (if (s.pos p).alerts.isEmpty = true then Cadence.off else .steady) = _
  simp only [List.isEmpty_iff]

/-! ### The focus loop (R158) -/

theorem staffed_iff (x : PosState) : x.staffed = true ↔ x = .opened ∨ x = .withdrawn := by
  cases x <;> decide

theorem isAlerting_iff (x : LoopState) : x.isAlerting = true ↔ ∃ i, x = .alerting i := by
  cases x <;> simp [LoopState.isAlerting]

/-- The only loop of which a property holds is the one a search over the loops finds. -/
theorem find?_allLoops_of_unique {f : LoopNo → Bool} {l : LoopNo} (hl : f l = true) (hu : ∀ m, f m = true → m = l) :
    allLoops.find? f = some l := by
  have hall : ∀ m : LoopNo, m ∈ allLoops := by decide
  cases h : allLoops.find? f with
  | none => exact absurd hl (List.find?_eq_none.1 h l (hall l))
  | some m => rw [hu m (List.find?_some h)]

theorem focus_of_voice {s : State} {p : Pos} {l : LoopNo} (hl : s.holdsVoice p l = true)
    (hu : ∀ m, s.holdsVoice p m = true → m = l) : s.focus p = some l := by
  rw [State.focus, find?_allLoops_of_unique hl hu]

theorem focus_of_silent {s : State} {p : Pos} (hv : ∀ m, ¬ s.holdsVoice p m = true) :
    s.focus p = allLoops.find? fun l => (s.loop p l).isAlerting := by
  rw [State.focus, List.find?_eq_none.2 fun m _ => hv m]

theorem focus_of_ringing {s : State} {p : Pos} {l : LoopNo} (hv : ∀ m, ¬ s.holdsVoice p m = true)
    (hl : ∃ i, s.loop p l = .alerting i) (hu : ∀ m, (∃ i, s.loop p m = .alerting i) → m = l) : s.focus p = some l := by
  rw [focus_of_silent hv]
  exact find?_allLoops_of_unique ((isAlerting_iff _).2 hl) fun m hm => hu m ((isAlerting_iff _).1 hm)

theorem focus_eq_none {s : State} {p : Pos} (h : ∀ m, ¬ s.holdsVoice p m = true ∧ ¬ ∃ i, s.loop p m = .alerting i) :
    s.focus p = none := by
  rw [focus_of_silent fun m => (h m).1]
  exact List.find?_eq_none.2 fun m _ hm => (h m).2 ((isAlerting_iff _).1 hm)

/-! ### The lines (R158) -/

/-- The display of a staffed position: line 1, and the content of line 2 with the queued figure behind it. -/
def State.displays (s : State) (p : Pos) (line1 content : List Byte) : Prop :=
  s.wantedLine p 0 = line1 ∧ s.wantedLine p 1 = padTo 16 content ++ 0x51 :: figure (s.queuedFigure p)

theorem wantedLine_unstaffed {s : State} {p : Pos} (h : ¬ (s.pos p).state.staffed = true) (j : Fin 2) :
    s.wantedLine p j = List.replicate 20 0x20 := by
  rw [State.wantedLine, State.wantedLine1, State.wantedLine2, if_neg h, if_neg h, ite_self, padTo_nil]

theorem displays_of_lines {s : State} {p : Pos} {line1 content : List Byte} (h1 : s.wantedLine1 p = line1)
    (h2 : s.wantedLine2 p = padTo 16 content ++ txt ['Q'] ++ figure (s.queuedFigure p)) : s.displays p line1 content :=
  ⟨h1, h2.trans (List.append_assoc ..)⟩

theorem displays_of_focus {s : State} {p : Pos} {l : LoopNo} (hs : (s.pos p).state.staffed = true)
    (hf : s.focus p = some l) : s.displays p (s.tagLine (s.loop p l).slot? l) (s.focusContent p l) :=
  displays_of_lines (by rw [State.wantedLine1, if_pos hs, hf]) (by rw [State.wantedLine2, if_pos hs, hf])

theorem displays_of_note {s : State} {p : Pos} {n : Note} (hs : (s.pos p).state.staffed = true)
    (hf : s.focus p = none) (hn : (s.pos p).note = some n) : s.displays p (padTo 20 n.line1) n.content :=
  displays_of_lines (by rw [State.wantedLine1, if_pos hs, hf, hn]) (by rw [State.wantedLine2, if_pos hs, hf, hn])

theorem displays_nothing {s : State} {p : Pos} (hs : (s.pos p).state.staffed = true) (hf : s.focus p = none)
    (hn : (s.pos p).note = none) : s.displays p (List.replicate 20 0x20) [] :=
  displays_of_lines (by rw [State.wantedLine1, if_pos hs, hf, hn, padTo_nil])
    (by rw [State.wantedLine2, if_pos hs, hf, hn])

/-- Line 1 for a call: the whole tag, which fills its 16 places, and the loop number. -/
theorem tagLine_of_record {s : State} {i : Slot} {r : Record} (l : LoopNo) (hr : s.slot i = .live r)
    (htag : (s.tenant r.tenant).tag.length = 16) :
    s.tagLine (some i) l = (s.tenant r.tenant).tag ++ [0x20, 0x4C, BitVec.ofNat 8 (49 + l.val), 0x20] := by
  have htenant : (some i).bind s.tenantOf = some r.tenant := by
    simp [State.tenantOf, (record?_eq_some s i).2 hr]
  have hnumber : digitChar (l.val + 1) = BitVec.ofNat 8 (49 + l.val) := by
    rw [digitChar_of_lt (by omega), ← Nat.add_assoc, Nat.add_right_comm]
  simp only [State.tagLine, htenant, padTo_of_length htag, hnumber, List.append_assoc]
  rfl

/-- Line 2 for a call is one of three contents: the text of an offered recall, the destination and step text of an EXTEND
loop, and otherwise the caller digits. -/
theorem focusContent_of_record {s : State} {p : Pos} {l : LoopNo} {i : Slot} {r : Record} (hr : s.slot i = .live r)
    (hl : (s.loop p l).slot? = some i) :
    s.focusContent p l = match s.loop p l, r.kind with
      | .alerting _, .recall why => why.text
      | .extend _, _ => numeral (r.dest.getD []) ++ 0x20 :: stepText r.step ((s.entry? i).map Entry.order)
      | _, _ => numeral r.digits := by
  simp only [State.focusContent, hl, (record?_eq_some s i).2 hr, digitChars_eq_numeral, List.append_assoc]
  rfl

theorem recallText_eq_chars (why : RecallReason) : why.text = chars (
    match why with
    | .hold => "RECALL HOLD"
    | .park => "RECALL PARK"
    | .camp => "RECALL CAMP"
    | .noAnswer => "RECALL NO ANSWER"
    | .positionLost => "RECALL POS LOST") := by
  cases why <;> decide

theorem stepText_eq_chars (step : Fin 7) (o : Option Order) : stepText step o = chars (
    if step = 1 then "SPLIT"
    else if step = 2 then "CALLING"
    else if step = 3 then "RINGING"
    else if step = 4 then "BUSY"
    else if step = 5 then "ANSWERED"
    else
      match o with
      | some .transfer => "TRANSFER"
      | some (.camp _) => "CAMPING"
      | some .dropDest => "CANCEL"
      | some (.connect _ _) => "RETURNING"
      | _ => "") := by
  have hcamp : txt ['C', 'A', 'M', 'P', 'I', 'N', 'G'] = chars "CAMPING" := by decide
  have hreturn : txt ['R', 'E', 'T', 'U', 'R', 'N', 'I', 'N', 'G'] = chars "RETURNING" := by decide
  simp only [stepText, apply_ite chars]
  congr 5
  match o with
  | some (.camp _) => exact hcamp
  | some (.connect _ _) => exact hreturn
  | none | some .hold | some .release | some .split | some .dropDest | some .transfer | some .retrieve
  | some (.ringExt _) | some (.divert _) => rfl

end Sys2Proof.Machine

namespace Sys2Proof
open Sys2Proof.Machine

/-- Settles O60: the lamps case by case, and the display through the focus loop, which is the one loop R158 names. -/
theorem lampsAndDisplayFollowTheState : Obligations.LampsAndDisplayFollowTheState := by
  intro s p _
  refine ⟨fun l => ?loopLamp, ?openLamp, wantedLamp_alert s p, rfl, fun hopen hwithdrawn => ?blank, fun hstate => ?lines⟩
  case loopLamp =>
    rw [wantedLamp_loop]
    cases s.loop p l <;> rfl
  case openLamp =>
    change (s.pos p).state.openLamp = _
    cases (s.pos p).state <;> rfl
  case blank =>
    exact wantedLine_unstaffed fun hs => ((staffed_iff _).1 hs).elim hopen hwithdrawn
  case lines =>
    have hs : (s.pos p).state.staffed = true := (staffed_iff _).2 hstate
    intro voice ringing queued shows
    have shows_of {line1 content : List Byte} (h : s.displays p line1 content) : shows line1 content := by
      obtain ⟨h1, h2⟩ := h
      exact ⟨h1, by rw [h2, figure_eq]; rfl⟩
    refine ⟨fun l i r hr hl hfocus htag => ?focus, fun hnone => ?noFocus⟩
    case focus =>
      have hf : s.focus p = some l := by
        obtain ⟨hvoice, hu⟩ | ⟨hsilent, hring, hu⟩ := hfocus
        · exact focus_of_voice hvoice hu
        · exact focus_of_ringing hsilent hring hu
      have h := displays_of_focus hs hf
      rw [hl, tagLine_of_record l hr htag, focusContent_of_record hr hl] at h
      simp only [recallText_eq_chars, stepText_eq_chars] at h
      exact shows_of h
    case noFocus =>
      have hf : s.focus p = none := focus_eq_none hnone
      exact ⟨fun n hn => shows_of (displays_of_note hs hf hn), fun hn => shows_of (displays_nothing hs hf hn)⟩

end Sys2Proof
end

section
/-! PROOFS. What every event is made of: the few kinds of work that touch the Call Table, the order list, the queue list or what
the invariants ask of a position, and the invariants that each kind keeps. -/

namespace Sys2Proof.Machine

/-! ### What the invariants ask of one position -/

/-- The key buffer and the tones of one position are within their bounds (R73, R156). -/
def Position.buffersOk (q : Position) : Prop := q.keys.length ≤ 2 ∧ (q.txq.filter TxEntry.isTone).length ≤ 4

/-- The form of one alert list (R162). -/
def Position.alertsOk (q : Position) : Prop :=
  (∀ a ∈ q.alerts, a.loop.isNone = a.kind.positionLevel) ∧ (q.alerts.map Alert.place).Nodup

/-- While an entry sounds, the deadline of one position is armed (R160). -/
def Position.tonesOk (q : Position) : Prop := q.alerts.any q.sounding = true → q.toneRepeat.isSome = true

/-- A position keeps what the invariants ask of it. -/
structure Position.Keeps (q q' : Position) : Prop where
  buffers : q.buffersOk → q'.buffersOk
  alerts : q.alertsOk → q'.alertsOk
  tones : q.tonesOk → q'.tonesOk

namespace Position.Keeps

theorem refl (q : Position) : q.Keeps q := ⟨id, id, id⟩

theorem trans {a b c : Position} (h : a.Keeps b) (h' : b.Keeps c) : a.Keeps c :=
  ⟨h'.buffers ∘ h.buffers, h'.alerts ∘ h.alerts, h'.tones ∘ h.tones⟩

/-- The invariants look at the key buffer, the tones, the alert list, the tone mask and the tone repeat deadline alone. -/
theorem of_same {q q' : Position} (hk : q'.keys = q.keys)
    (ht : q'.txq.filter TxEntry.isTone = q.txq.filter TxEntry.isTone) (ha : q'.alerts = q.alerts)
    (hm : q'.toneMask = q.toneMask) (hr : q'.toneRepeat = q.toneRepeat) : q.Keeps q' := by
  have hs : q'.sounding = q.sounding := by funext a; unfold Position.sounding; rw [hm]
  constructor
  · unfold Position.buffersOk; rw [hk, ht]; exact id
  · unfold Position.alertsOk; rw [ha]; exact id
  · unfold Position.tonesOk; rw [ha, hr, hs]; exact id

end Position.Keeps

/-- A tone is sounded only while fewer than four stand in the transmit queue (R156). -/
theorem sound_keeps (q : Position) (t : Tone) : q.Keeps (q.sound t) := by
  constructor
  · rintro ⟨hk, ht⟩
    rw [sound_eq]
    refine ⟨hk, ?_⟩
    simp only [List.filter_append, List.length_append]
    split
    · next h =>
      have hone : (List.filter TxEntry.isTone [TxEntry.tone t]).length = 1 := rfl
      simp only [Config.tonePlaces] at h
      omega
    · simpa using ht
  · rw [sound_eq]; exact id
  · rw [sound_eq]; exact id

/-- A sounded tone with the deadline armed (R160). -/
theorem sound_armed_keeps (q : Position) (t : Tone) (d : Tick) : q.Keeps { q.sound t with toneRepeat := some d } where
  buffers := (sound_keeps q t).buffers
  alerts := (sound_keeps q t).alerts
  tones := fun _ _ => rfl

/-- Entries that leave the list leave the rest in form, and the deadline is disarmed only with the last sounding one (R160). -/
theorem keepAlerts_keeps (q : Position) (keep : Alert → Bool) : q.Keeps (q.keepAlerts keep) where
  buffers := id
  alerts := fun ⟨hform, hnodup⟩ =>
    ⟨fun a ha => hform a (List.mem_filter.1 ha).1, hnodup.sublist (List.filter_sublist.map _)⟩
  tones := by
    intro hq (hany : (q.alerts.filter keep).any q.sounding = true)
    have hold : q.alerts.any q.sounding = true := by
      obtain ⟨a, ha, hs⟩ := List.any_eq_true.1 hany
      exact List.any_eq_true.2 ⟨a, (List.mem_filter.1 ha).1, hs⟩
    rw [keepAlerts_toneRepeat, hany, hold]
    exact hq hold

theorem clearAlerts_keeps (q : Position) : q.Keeps q.clearAlerts where
  buffers := id
  alerts := fun _ => ⟨fun _ h => by simp [Position.clearAlerts] at h, by simp [Position.clearAlerts]⟩
  tones := fun _ h => by simp [Position.clearAlerts] at h

theorem dropHead_keeps (q : Position) : q.Keeps q.dropHead where
  buffers := id
  alerts := fun ⟨hform, hnodup⟩ =>
    ⟨fun a ha => hform a (List.mem_of_mem_tail ha), hnodup.sublist ((List.tail_sublist _).map _)⟩
  tones := by
    intro hq (hany : q.alerts.tail.any q.sounding = true)
    have hold : q.alerts.any q.sounding = true := by
      obtain ⟨a, ha, hs⟩ := List.any_eq_true.1 hany
      exact List.any_eq_true.2 ⟨a, List.mem_of_mem_tail ha, hs⟩
    unfold Position.dropHead
    simp only [hany, hold]
    exact hq hold

/-- A new entry at the tail, in a place no other entry has, with what it sounds (R160, R162). -/
theorem enterAlert_keeps {q : Position} {old : List Alert} {a : Alert} (hsub : old.Sublist q.alerts)
    (hform : a.loop.isNone = a.kind.positionLevel) (hnew : a.place ∉ old.map Alert.place) (now : Tick) :
    q.Keeps (Position.soundEntered { q with alerts := old ++ [a] } now a.kind) := by
  have hlist (q' : Position) (hq' : q'.alerts = old ++ [a]) : q.alertsOk → q'.alertsOk := by
    rintro ⟨hf, hn⟩
    unfold Position.alertsOk
    rw [hq']
    refine ⟨fun b hb => ?_, ?_⟩
    · rcases List.mem_append.1 hb with hb | hb
      · exact hf b (hsub.subset hb)
      · rw [List.mem_singleton.1 hb]; exact hform
    · rw [List.map_append, List.nodup_append]
      exact ⟨hn.sublist (hsub.map _), by simp, by
        intro x hx y hy
        simp only [List.map_cons, List.map_nil, List.mem_singleton] at hy
        subst hy
        rintro rfl
        exact hnew hx⟩
  unfold Position.soundEntered
  by_cases hm : inMask q.toneMask a.kind = true
  · rw [if_pos hm]
    have hs := sound_armed_keeps { q with alerts := old ++ [a] } a.kind.tone (now + Config.toneRepeat)
    exact ⟨hs.buffers, fun h => hs.alerts (hlist _ rfl h), fun _ _ => rfl⟩
  · rw [if_neg hm]
    refine ⟨id, hlist _ rfl, fun hq hany => hq ?_⟩
    obtain ⟨b, hb, hsb⟩ := List.any_eq_true.1 hany
    rcases List.mem_append.1 hb with hb | hb
    · exact List.any_eq_true.2 ⟨b, hsub.subset hb, hsb⟩
    · rw [List.mem_singleton.1 hb] at hsb
      exact absurd hsb hm

theorem place_loop_iff (a : Alert) (l : LoopNo) (k : AlertKind) : a.place = Alert.place ⟨k, some l⟩ ↔ a.loop = some l := by
  unfold Alert.place
  cases a.loop <;> simp

theorem raiseLoop_keeps (q : Position) (now : Tick) {k : AlertKind} (hk : k.positionLevel = false) (l : LoopNo) :
    q.Keeps (q.raiseLoop now k l) := by
  unfold Position.raiseLoop
  split
  · refine enterAlert_keeps (a := ⟨k, some l⟩) List.filter_sublist (by simp [hk]) ?_ now
    intro hmem
    obtain ⟨b, hb, hpl⟩ := List.mem_map.1 hmem
    have hloop := (place_loop_iff b l k).1 hpl
    simp [hloop] at hb
  · exact .refl q

theorem raiseKind_keeps (q : Position) (now : Tick) {k : AlertKind} (hk : k.positionLevel = true) :
    q.Keeps (q.raiseKind now k) := by
  unfold Position.raiseKind
  split
  · next h =>
    simp only [Bool.and_eq_true, Bool.not_eq_true', List.any_eq_false, beq_iff_eq] at h
    refine enterAlert_keeps (a := ⟨k, none⟩) (List.Sublist.refl _) (by simp [hk]) ?_ now
    intro hmem
    obtain ⟨b, hb, hpl⟩ := List.mem_map.1 hmem
    unfold Alert.place at hpl
    cases hl : b.loop with
    | some l => simp [hl] at hpl
    | none => simp only [hl, Prod.mk.injEq, Option.some.injEq, true_and] at hpl; exact h.2 b hb hpl
  · exact .refl q

/-- Bringing an item in step leaves the tones as they are (R156). -/
theorem queueItem_tones (q : Position) (it : Item) (d : Bool) :
    (q.queueItem it d).txq.filter TxEntry.isTone = q.txq.filter TxEntry.isTone := by
  unfold Position.queueItem
  split
  · split
    · rfl
    · simp [List.filter_append, TxEntry.isTone]
  · rw [List.filter_filter]
    refine List.filter_congr fun e _ => ?_
    cases e <;> simp [TxEntry.isTone]

theorem queueItem_keeps (q : Position) (it : Item) (d : Bool) : q.Keeps (q.queueItem it d) := by
  have h := queueItem_tones q it d
  rw [queueItem_frame] at h ⊢
  exact .of_same rfl h rfl rfl rfl

theorem withMasks_keeps (q : Position) (now : Tick) (w : Decode.PositionWrite) : q.Keeps (q.withMasks now w) := by
  unfold Position.withMasks Position.afterToneMask
  split
  · split
    · next d hd => exact ⟨id, id, fun _ _ => by rw [show q.toneRepeat = some d from hd]; rfl⟩
    · have hs := sound_armed_keeps { q with tenantMask := w.tenantMask, latchMask := w.latchMask, toneMask := w.toneMask }
        (Position.repeatTone { q with tenantMask := w.tenantMask, latchMask := w.latchMask, toneMask := w.toneMask })
        (now + Config.toneRepeat)
      exact ⟨hs.buffers, hs.alerts, fun _ _ => rfl⟩
  · next h => exact ⟨id, id, fun _ hany => absurd hany h⟩

theorem toneDue_keeps (q : Position) (now : Tick) : q.Keeps (q.toneDue now) := by
  unfold Position.toneDue
  split
  · exact sound_armed_keeps q _ _
  · next h => exact ⟨id, id, fun _ hany => absurd hany h⟩

theorem emptied_keeps (q : Position) : q.Keeps q.emptied := by
  have hloops : q.Keeps { q with loops := Vector.replicate 6 .idle } := .of_same rfl rfl rfl rfl rfl
  unfold Position.emptied
  exact hloops.trans (keepAlerts_keeps _ _)

theorem dropLoopAlert_keeps (q : Position) (l : LoopNo) : q.Keeps (q.dropLoopAlert l) := keepAlerts_keeps _ _

theorem dropKindAt_keeps (q : Position) (l : LoopNo) (k : AlertKind) : q.Keeps (q.dropKindAt l k) := keepAlerts_keeps _ _

theorem setLoop_keeps (q : Position) (l : LoopNo) (x : LoopState) : q.Keeps (q.setLoop l x) :=
  .of_same rfl rfl rfl rfl rfl

end Sys2Proof.Machine
end

section
/-! PROOFS. The kinds of work, and the invariants of the order list, the references, the queue list, the night state, the link and
the positions that each of them keeps. -/

namespace Sys2Proof.Machine

/-- Work that leaves the link state, keeps the night state in step with the positions, and keeps what the invariants ask of each
position. -/
structure Quiet (s t : State) : Prop where
  link : t.link = s.link
  night : s.nightOk → t.nightOk
  keeps : ∀ p, (s.pos p).Keeps (t.pos p)

namespace Quiet

theorem refl (s : State) : Quiet s s := ⟨rfl, id, fun _ => .refl _⟩

theorem trans {s t u : State} (h : Quiet s t) (h' : Quiet t u) : Quiet s u :=
  ⟨h'.link.trans h.link, h'.night ∘ h.night, fun p => (h.keeps p).trans (h'.keeps p)⟩

end Quiet

/-- Two states with the same Call Table, order list, send window and queue list. -/
structure SameTable (s t : State) : Prop where
  slots : t.slots = s.slots
  orders : t.orders = s.orders
  window : t.window = s.window
  queue : t.queue = s.queue

theorem SameTable.refl (s : State) : SameTable s s := ⟨rfl, rfl, rfl, rfl⟩

theorem SameTable.trans {s t u : State} (h : SameTable s t) (h' : SameTable t u) : SameTable s u :=
  ⟨h'.slots.trans h.slots, h'.orders.trans h.orders, h'.window.trans h.window, h'.queue.trans h.queue⟩

/-- The queue list after the call of a slot has gone from one location to another. -/
def queueMoved (queue : List Slot) (i : Slot) (old new : Location) : List Slot :=
  (if old = .queued then queue.filter fun j => j != i else queue) ++ if new = .queued then [i] else []

/-- The kinds of work an event is made of. -/
inductive Work (s : State) : State → Prop
  /-- Nothing in the Call Table, the order list or the queue list. -/
  | quiet {t} (h : Quiet s t) (table : SameTable s t) : Work s t
  /-- A record goes to another location, or stays, with its reference. -/
  | relocate {t} (i : Slot) (r r' : Record) (h : Quiet s t) (live : s.slot i = .live r) (ref : r'.ref = r.ref)
      (slots : t.slots = (s.setSlot i (.live r')).slots) (queue : t.queue = queueMoved s.queue i r.loc r'.loc)
      (orders : t.orders = s.orders) (window : t.window = s.window) : Work s t
  /-- A record changes and keeps its reference and its location. -/
  | record (i : Slot) (f : Record → Record) (ref : ∀ r, (f r).ref = r.ref)
      (loc : ∀ r, s.slot i = .live r → ((f r).loc = .queued ↔ r.loc = .queued)) : Work s (s.updRec i f)
  /-- A call is admitted into a FREE slot and joins the queue. -/
  | join {t} (i : Slot) (r : Record) (h : Quiet s t) (up : s.link = .up) (free : s.slot i = .free) (loc : r.loc = .queued)
      (nonzero : r.ref ≠ 0) (fresh : ∀ j, (s.slot j).holds r.ref = false) (slots : t.slots = (s.setSlot i (.live r)).slots)
      (queue : t.queue = s.queue ++ [i]) (orders : t.orders = s.orders) (window : t.window = s.window) : Work s t
  /-- A record with a SENT entry goes RETIRING. -/
  | retireSent {t} (i : Slot) (r : Record) (e : Entry) (h : Quiet s t) (live : s.slot i = .live r)
      (entry : s.entry? i = some e) (sent : e.isSent = true) (slots : t.slots = (s.setSlot i (.retiring r.ref)).slots)
      (queue : t.queue = queueMoved s.queue i r.loc (.loop 0 0)) (orders : t.orders = s.orders) (window : t.window = s.window) :
      Work s t
  /-- A record goes FREE, and with it an entry that is not SENT. -/
  | retireFree {t} (i : Slot) (r : Record) (h : Quiet s t) (live : s.slot i = .live r)
      (slots : t.slots = (s.setSlot i .free).slots) (queue : t.queue = queueMoved s.queue i r.loc (.loop 0 0))
      (orders : t.orders = s.orders.filter fun e => e.slot != i)
      (window : (t.window = s.window.filter fun j => j != i) ∨ (s.inFlight i = false ∧ t.window = s.window)) : Work s t
  /-- An order is issued for a LIVE record that has none. -/
  | issue (i : Slot) (r : Record) (o : Order) (m : Mark) (live : s.slot i = .live r) (settled : s.inFlight i = false) :
      Work s { s with orders := s.orders ++ [⟨i, r.ref, o, m, .waiting, 0⟩] }
  /-- The oldest WAITING entry is sent. -/
  | send (e : Entry) (d : Tick) (room : s.window.length < 8) (oldest : s.oldestWaiting = some e) :
      Work s { s.updEntry e.slot (fun e' => { e' with state := .sent d false }) with
        window := s.window ++ [e.slot], xout := s.xout ++ [.order e.order e.ref] }
  /-- An entry changes and stays SENT or not. -/
  | entry (i : Slot) (e : Entry) (g : Entry → Entry) (at' : s.entry? i = some e)
      (keeps : ∀ e, (g e).slot = e.slot ∧ (g e).ref = e.ref) (sent : (g e).isSent = e.isSent) : Work s (s.updEntry i g)
  /-- The entry of a LIVE record leaves the window and rests. -/
  | rest (i : Slot) (r : Record) (g : Entry → Entry) (live : s.slot i = .live r)
      (keeps : ∀ e, (g e).slot = e.slot ∧ (g e).ref = e.ref ∧ (g e).isSent = false) :
      Work s { s.updEntry i g with window := s.window.filter fun j => j != i }
  /-- An entry leaves with its response; a RETIRING slot goes FREE with it. -/
  | respond (i : Slot) (live : ∀ ref, s.slot i ≠ .retiring ref) : Work s (s.dropEntry i)
  | respondRetiring (i : Slot) (ref : CallRef) (retiring : s.slot i = .retiring ref) :
      Work s ((s.dropEntry i).setSlot i .free)
  /-- The link comes UP. -/
  | linkUp : Work s { s with link := .up }
  /-- Every call and order is gone, whatever the link does. -/
  | emptied {t} (night : s.nightOk → t.nightOk) (keeps : ∀ p, (s.pos p).Keeps (t.pos p)) (slots : ∀ i, t.slot i = .free)
      (orders : t.orders = []) (window : t.window = []) (queue : t.queue = []) : Work s t

/-- An event: some work after other work. -/
abbrev Event : State → State → Prop := Relation.ReflTransGen Work

theorem Event.of_work {s t : State} (h : Work s t) : Event s t := .single h

theorem Event.of_quiet {s t : State} (h : Quiet s t) (table : SameTable s t) : Event s t := .single (.quiet h table)

/-- A property that every kind of work keeps is kept by every event. -/
theorem Event.keeps {P : State → Prop} (hP : ∀ s t, Work s t → P s → P t) {s t : State} (h : Event s t) : P s → P t := by
  induction h with
  | refl => exact id
  | tail _ hw ih => exact fun hs => hP _ _ hw (ih hs)

/-! ### The slots after each kind of work -/

theorem slot_of_slots {s t : State} (h : t.slots = s.slots) (j : Slot) : t.slot j = s.slot j := by
  unfold State.slot; rw [h]

theorem slot_of_setSlot {s t : State} {i : Slot} {x : SlotState} (h : t.slots = (s.setSlot i x).slots) (j : Slot) :
    t.slot j = if i = j then x else s.slot j := by
  rw [slot_of_slots h, slot_setSlot]

theorem updRec_slots_of_live {s : State} {i : Slot} {r : Record} (h : s.slot i = .live r) (f : Record → Record) :
    s.updRec i f = s.setSlot i (.live (f r)) := updRec_live s i ((record?_eq_some s i).2 h) f

/-- A record change on a slot: none, or the LIVE record is replaced. -/
theorem updRec_cases (s : State) (i : Slot) (f : Record → Record) :
    s.updRec i f = s ∨ ∃ r, s.slot i = .live r ∧ s.updRec i f = s.setSlot i (.live (f r)) := by
  unfold State.updRec
  split
  · next r hr => exact .inr ⟨r, hr, rfl⟩
  · exact .inl rfl

/-! ### Night, link and positions -/

theorem nightOk_of_same {s t : State} (hn : t.night = s.night) (hd : t.nightDelay = s.nightDelay)
    (hp : ∀ p, (t.pos p).state = (s.pos p).state) : s.nightOk → t.nightOk := by
  unfold State.nightOk
  simp only [hn, hd, hp]
  exact id

theorem Work.nightOk {s t : State} (h : Work s t) : s.nightOk → t.nightOk := by
  cases h with
  | quiet h _ | relocate _ _ _ h | join _ _ h | retireSent _ _ _ h | retireFree _ _ h => exact h.night
  | record i f => exact nightOk_of_same (by simp) (by simp) (by simp)
  | emptied night => exact night
  | issue | send | entry | rest | respond | respondRetiring | linkUp => exact id

theorem Work.keepsPos {s t : State} (h : Work s t) (p : Pos) : (s.pos p).Keeps (t.pos p) := by
  cases h with
  | quiet h _ | relocate _ _ _ h | join _ _ h | retireSent _ _ _ h | retireFree _ _ h => exact h.keeps p
  | record i f => rw [updRec_pos]; exact .refl _
  | emptied _ keeps => exact keeps p
  | issue | send | entry | rest | respond | respondRetiring | linkUp => exact .refl _

theorem Work.alertsOk {s t : State} (h : Work s t) (hs : s.alertsOk) : t.alertsOk :=
  fun p => (h.keepsPos p).alerts (hs p)

theorem Work.tonesOk {s t : State} (h : Work s t) (hs : s.tonesOk) : t.tonesOk :=
  fun p => (h.keepsPos p).tones (hs p)

theorem Work.windowBound {s t : State} (h : Work s t) (hs : s.window.length ≤ 8) : t.window.length ≤ 8 := by
  cases h with
  | quiet _ table => rw [table.window]; exact hs
  | relocate _ _ _ _ _ _ _ _ _ window | retireSent _ _ _ _ _ _ _ _ _ _ window => rw [window]; exact hs
  | join _ _ _ _ _ _ _ _ _ _ _ window => rw [window]; exact hs
  | retireFree _ _ _ _ _ _ _ window =>
    rcases window with window | ⟨-, window⟩ <;> rw [window]
    · exact (List.length_filter_le _ _).trans hs
    · exact hs
  | record i f => simpa using hs
  | issue | entry | linkUp => exact hs
  | send e d room _ =>
    have : (s.window ++ [e.slot]).length ≤ 8 := by rw [List.length_append]; exact room
    exact this
  | rest | respond | respondRetiring => exact (List.length_filter_le _ _).trans hs
  | emptied _ _ _ _ window => rw [window]; simp

theorem Work.boundsOk {s t : State} (h : Work s t) (hs : s.boundsOk) : t.boundsOk :=
  ⟨h.windowBound hs.1, fun p => (h.keepsPos p).buffers (hs.2 p)⟩

/-- The link is UP wherever a slot is not FREE or the order list is not empty. -/
theorem downOk_iff (s : State) : s.downOk ↔ s.link = .up ∨ (s.orders = [] ∧ ∀ i, s.slot i = .free) := by
  unfold State.downOk
  by_cases h : s.link = .up <;> simp [h]

theorem Work.downOk {s t : State} (h : Work s t) (hs : s.downOk) : t.downOk := by
  rw [downOk_iff] at hs ⊢
  have hlive {i : Slot} {r : Record} (hi : s.slot i = .live r) : s.link = .up := by
    rcases hs with hup | ⟨_, hfree⟩
    · exact hup
    · rw [hfree] at hi; cases hi
  cases h with
  | quiet h table =>
    rw [h.link, table.orders]
    exact hs.imp_right fun ⟨ho, hf⟩ => ⟨ho, fun i => by rw [slot_of_slots table.slots, hf]⟩
  | relocate _ _ _ h live => exact .inl (h.link.trans (hlive live))
  | join _ _ h up => exact .inl (h.link.trans up)
  | retireSent _ _ _ h live => exact .inl (h.link.trans (hlive live))
  | retireFree _ _ h live => exact .inl (h.link.trans (hlive live))
  | record i f =>
    rcases updRec_cases s i f with h | ⟨r, hr, h⟩ <;> rw [h]
    · exact hs
    · exact .inl (hlive hr)
  | issue _ _ _ _ live => exact .inl (hlive live)
  | send e _ _ oldest =>
    refine hs.imp_right fun ⟨ho, _⟩ => ?_
    simp [State.oldestWaiting, ho] at oldest
  | entry i e g => exact hs.imp_right fun ⟨ho, hf⟩ => ⟨by simp [State.updEntry, ho], hf⟩
  | rest i r g live => exact .inl (hlive live)
  | respond i => exact hs.imp_right fun ⟨ho, hf⟩ => ⟨by simp [State.dropEntry, ho], hf⟩
  | respondRetiring i ref retiring =>
    refine .inl (hs.resolve_right fun ⟨_, hf⟩ => ?_)
    rw [hf] at retiring; cases retiring
  | linkUp => exact .inl rfl
  | emptied _ _ slots orders => exact .inr ⟨orders, slots⟩

/-! ### The call references (R3, R5) -/

/-- The references do not spread: a slot holds no reference that it did not hold before, but for a fresh one. -/
theorem refsOk_of_holds {s t : State} (h : ∀ j ref, (t.slot j).holds ref = true → (s.slot j).holds ref = true) (hs : s.refsOk) :
    t.refsOk := by
  refine ⟨fun i j ref hi hj => hs.1 i j ref (h i ref hi) (h j ref hj), fun i => ?_⟩
  rw [Bool.eq_false_iff]
  intro hz
  have := h i 0 hz
  rw [hs.2 i] at this
  cases this

theorem refsOk_of_setSlot {s t : State} {i : Slot} {x : SlotState} (h : t.slots = (s.setSlot i x).slots)
    (hx : ∀ ref, x.holds ref = true → (s.slot i).holds ref = true) : s.refsOk → t.refsOk := by
  refine refsOk_of_holds fun j ref => ?_
  rw [slot_of_setSlot h]
  split
  · next hij => rw [← hij]; exact hx ref
  · exact id

theorem refsOk_of_slots {s t : State} (h : t.slots = s.slots) : s.refsOk → t.refsOk :=
  refsOk_of_holds fun j ref => by rw [slot_of_slots h]; exact id

theorem Work.refsOk {s t : State} (h : Work s t) : s.refsOk → t.refsOk := by
  cases h with
  | quiet _ table => exact refsOk_of_slots table.slots
  | relocate i r r' _ live ref slots =>
    exact refsOk_of_setSlot slots fun x hx => by simpa [live, SlotState.holds, ref] using hx
  | record i f ref =>
    rcases updRec_cases s i f with h | ⟨r, hr, h⟩ <;> rw [h]
    · exact id
    · exact refsOk_of_setSlot rfl fun x hx => by simpa [hr, SlotState.holds, ref] using hx
  | join i r _ _ _ _ nonzero fresh slots =>
    intro hs
    have hslot (j : Slot) (ref : CallRef) (hj : (t.slot j).holds ref = true) :
        (j = i ∧ ref = r.ref) ∨ (s.slot j).holds ref = true := by
      rw [slot_of_setSlot slots] at hj
      split at hj
      · next hij => exact .inl ⟨hij.symm, (beq_iff_eq.1 (hj : (r.ref == ref) = true)).symm⟩
      · exact .inr hj
    refine ⟨fun j k ref hj hk => ?_, fun j => ?_⟩
    · rcases hslot j ref hj with ⟨rfl, rfl⟩ | hj' <;> rcases hslot k _ hk with ⟨rfl, hr⟩ | hk'
      · rfl
      · rw [fresh] at hk'; cases hk'
      · subst hr; rw [fresh] at hj'; cases hj'
      · exact hs.1 j k ref hj' hk'
    · rw [Bool.eq_false_iff]
      intro hz
      rcases hslot j 0 hz with ⟨_, h0⟩ | h0
      · exact nonzero h0.symm
      · rw [hs.2] at h0; cases h0
  | retireSent i r e _ live _ _ slots =>
    exact refsOk_of_setSlot slots fun x hx => by simpa [live, SlotState.holds] using hx
  | retireFree i r _ live slots => exact refsOk_of_setSlot slots fun x hx => by simp [SlotState.holds] at hx
  | respondRetiring i ref =>
    exact refsOk_of_setSlot (x := .free) (i := i) rfl fun x hx => by simp [SlotState.holds] at hx
  | issue | send | entry | rest | respond | linkUp => exact refsOk_of_slots rfl
  | emptied _ _ slots => exact refsOk_of_holds fun j ref hj => by simp [slots, SlotState.holds] at hj

/-! ### The queue list (R43) -/

/-- Whether a slot holds a QUEUED record. -/
def SlotState.queued (x : SlotState) : Prop := ∃ r, x = .live r ∧ r.loc = .queued

theorem queueOk_of_same {s t : State} (hq : t.queue = s.queue) (h : ∀ j, (t.slot j).queued ↔ (s.slot j).queued) :
    s.queueOk → t.queueOk := by
  rintro ⟨hn, hm⟩
  exact ⟨by rw [hq]; exact hn, fun j => by rw [hq, hm j]; exact (h j).symm⟩

theorem mem_queueMoved {queue : List Slot} {i j : Slot} {old new : Location} :
    j ∈ queueMoved queue i old new ↔ (j ∈ queue ∧ (old = .queued → j ≠ i)) ∨ (j = i ∧ new = .queued) := by
  unfold queueMoved
  rw [List.mem_append]
  refine or_congr ?_ ?_
  · split
    · next h => simp [h]
    · next h => simp [h]
  · split
    · next h => simp [h]
    · next h => simp [h]

/-- The queue list stays in step when the call of a slot moves, or leaves the table. -/
theorem queueOk_of_moved {s t : State} {i : Slot} {r : Record} {x : SlotState} {new : Location} (live : s.slot i = .live r)
    (slots : t.slots = (s.setSlot i x).slots) (queue : t.queue = queueMoved s.queue i r.loc new)
    (hx : x.queued ↔ new = .queued) : s.queueOk → t.queueOk := by
  rintro ⟨hn, hm⟩
  have hi : i ∈ s.queue ↔ r.loc = .queued := by rw [hm i, live]; simp
  refine ⟨?_, fun j => ?_⟩
  · rw [queue]
    unfold queueMoved
    split
    · split
      · simpa [List.nodup_append] using hn.filter _
      · simpa using hn.filter _
    · next hold =>
      split
      · rw [List.nodup_append]
        exact ⟨hn, by simp, fun a ha b hb => by
          rw [List.mem_singleton.1 hb]; rintro rfl; exact hold (hi.1 ha)⟩
      · simpa using hn
  · rw [queue, mem_queueMoved, slot_of_setSlot slots]
    by_cases hij : i = j
    · subst hij
      rw [if_pos rfl]
      refine Iff.trans ?_ hx.symm
      constructor
      · rintro (⟨h1, h2⟩ | ⟨_, h⟩)
        · exact absurd rfl (h2 (hi.1 h1))
        · exact h
      · exact fun h => .inr ⟨rfl, h⟩
    · rw [if_neg hij, ← hm j]
      constructor
      · rintro (⟨h, _⟩ | ⟨h, _⟩)
        · exact h
        · exact absurd h.symm hij
      · exact fun h => .inl ⟨h, fun _ => fun h' => hij h'.symm⟩

theorem Work.queueOk {s t : State} (h : Work s t) : s.queueOk → t.queueOk := by
  cases h with
  | quiet _ table => exact queueOk_of_same table.queue fun j => by rw [slot_of_slots table.slots]
  | relocate i r r' _ live _ slots queue => exact queueOk_of_moved live slots queue (by simp [SlotState.queued])
  | record i f _ loc =>
    refine queueOk_of_same (by simp) fun j => ?_
    rcases updRec_cases s i f with h | ⟨r, hr, h⟩ <;> rw [h]
    rw [slot_setSlot]
    split
    · next hij => subst hij; simp [SlotState.queued, hr, loc r hr]
    · rfl
  | join i r _ _ free loc _ _ slots queue =>
    rintro ⟨hn, hm⟩
    have hi : i ∉ s.queue := by rw [hm i, free]; simp
    refine ⟨?_, fun j => ?_⟩
    · rw [queue, List.nodup_append]
      exact ⟨hn, by simp, fun a ha b hb => by rw [List.mem_singleton.1 hb]; rintro rfl; exact hi ha⟩
    · rw [queue, slot_of_setSlot slots, List.mem_append, List.mem_singleton]
      by_cases hij : i = j
      · subst hij; simp [loc]
      · rw [if_neg hij, hm j]
        exact or_iff_left fun h => hij h.symm
  | retireSent i r _ _ live _ _ slots queue => exact queueOk_of_moved live slots queue (by simp [SlotState.queued])
  | retireFree i r _ live slots queue => exact queueOk_of_moved live slots queue (by simp [SlotState.queued])
  | respondRetiring i ref retiring =>
    refine queueOk_of_same rfl fun j => ?_
    rw [slot_setSlot]
    split
    · next hij => subst hij; simp [SlotState.queued, retiring]
    · rfl
  | issue | send | entry | rest | respond | linkUp => exact queueOk_of_same rfl fun _ => Iff.rfl
  | emptied _ _ slots _ _ queue =>
    exact fun _ => ⟨by rw [queue]; exact List.nodup_nil, fun j => by simp [queue, slots]⟩

/-! ### The order list and the send window (R1, R124, R127) -/

/-- The entries of an order list as the window and the slots see them: which slot, which reference, whether SENT. -/
theorem ordersOk_of_slots {s t : State} (ho : t.orders = s.orders) (hw : t.window = s.window)
    (hlive : ∀ j r, s.slot j = .live r → ∃ r', t.slot j = .live r' ∧ r'.ref = r.ref)
    (hret : ∀ j ref, s.slot j = .retiring ref ↔ t.slot j = .retiring ref) : s.ordersOk → t.ordersOk := by
  rintro ⟨hn, hwn, hmem, hslot, hback⟩
  refine ⟨by rw [ho]; exact hn, by rw [hw]; exact hwn, fun i => by rw [ho, hw]; exact hmem i, fun e he => ?_,
    fun i ref h => ?_⟩
  · rw [ho] at he
    rcases hslot e he with ⟨r, hr, href⟩ | ⟨hr, hs⟩
    · obtain ⟨r', hr', href'⟩ := hlive _ _ hr
      exact .inl ⟨r', hr', href'.trans href⟩
    · exact .inr ⟨(hret _ _).1 hr, hs⟩
  · unfold State.inFlight
    rw [ho]
    exact hback i ref ((hret i ref).2 h)

/-- An entry found in a list is the only one of its slot. -/
theorem entry_unique {s : State} (h : (s.orders.map Entry.slot).Nodup) {e e' : Entry} (he : e ∈ s.orders) (he' : e' ∈ s.orders)
    (hs : e.slot = e'.slot) : e = e' := List.inj_on_of_nodup_map h he he' hs

theorem entry?_eq {s : State} (h : (s.orders.map Entry.slot).Nodup) {e : Entry} (he : e ∈ s.orders) : s.entry? e.slot = some e := by
  cases hf : s.entry? e.slot with
  | none =>
    unfold State.entry? at hf
    simpa using List.find?_eq_none.1 hf e he
  | some e' =>
    obtain ⟨hs, hm⟩ := entry?_slot hf
    rw [entry_unique h hm he hs]

/-- A slot leaves the order list and the window, and no SENT entry of it stays behind. -/
theorem ordersOk_of_filter {s t : State} {i : Slot} (ho : t.orders = s.orders.filter fun e => e.slot != i)
    (hw : t.window = s.window.filter fun j => j != i) (hslot : ∀ j, j ≠ i → t.slot j = s.slot j)
    (hi : ∀ ref, t.slot i ≠ .retiring ref) : s.ordersOk → t.ordersOk := by
  rintro ⟨hn, hwn, hmem, hold, hback⟩
  have hin (e : Entry) : e ∈ t.orders ↔ e ∈ s.orders ∧ e.slot ≠ i := by rw [ho]; simp
  refine ⟨?_, by rw [hw]; exact hwn.filter _, fun j => ?_, fun e he => ?_, fun j ref hj => ?_⟩
  · rw [ho]; exact hn.sublist (List.filter_sublist.map _)
  · rw [hw, List.mem_filter, hmem j]
    constructor
    · rintro ⟨⟨e, he, rfl, hs⟩, hne⟩
      exact ⟨e, (hin e).2 ⟨he, by simpa using hne⟩, rfl, hs⟩
    · rintro ⟨e, he, rfl, hs⟩
      exact ⟨⟨e, ((hin e).1 he).1, rfl, hs⟩, by simpa using ((hin e).1 he).2⟩
  · obtain ⟨he, hne⟩ := (hin e).1 he
    rw [hslot _ hne]
    exact hold e he
  · have hji : j ≠ i := by rintro rfl; exact hi ref hj
    rw [hslot j hji] at hj
    obtain ⟨e, he, rfl⟩ := (inFlight_iff s j).1 (hback j ref hj)
    exact (inFlight_iff t e.slot).2 ⟨e, (hin e).2 ⟨he, hji⟩, rfl⟩

/-- Entries change and the window with them, each in its list place. -/
theorem ordersOk_of_map {s t : State} {i : Slot} {g : Entry → Entry} (ho : t.orders = (s.updEntry i g).orders)
    (hslots : t.slots = s.slots) (keeps : ∀ e, (g e).slot = e.slot ∧ (g e).ref = e.ref)
    (hwn : s.window.Nodup → t.window.Nodup) (hne : ∀ j, j ≠ i → (j ∈ t.window ↔ j ∈ s.window))
    (hi : s.ordersOk → (i ∈ t.window ↔ ∃ e ∈ s.orders, e.slot = i ∧ (g e).isSent = true))
    (hret : s.ordersOk → ∀ e ∈ s.orders, e.slot = i → (∃ ref, s.slot i = .retiring ref) → (g e).isSent = true) :
    s.ordersOk → t.ordersOk := by
  intro hs
  have hi := hi hs
  have hret := hret hs
  obtain ⟨hn, hw, hmem, hold, hback⟩ := hs
  have hg (e : Entry) : (if e.slot = i then g e else e).slot = e.slot ∧ (if e.slot = i then g e else e).ref = e.ref := by
    split
    · exact keeps e
    · exact ⟨rfl, rfl⟩
  have hmap : t.orders.map Entry.slot = s.orders.map Entry.slot := by
    rw [ho]
    simp only [State.updEntry, List.map_map]
    exact List.map_congr_left fun e _ => (hg e).1
  have hin {e' : Entry} : e' ∈ t.orders ↔ ∃ e ∈ s.orders, (if e.slot = i then g e else e) = e' := by
    rw [ho]; exact List.mem_map
  refine ⟨by rw [hmap]; exact hn, hwn hw, fun j => ?_, fun e' he' => ?_, fun j ref hj => ?_⟩
  · by_cases hj : j = i
    · subst hj
      rw [hi]
      constructor
      · rintro ⟨e, he, rfl, hsent⟩
        exact ⟨g e, hin.2 ⟨e, he, if_pos rfl⟩, (keeps e).1, hsent⟩
      · rintro ⟨e', he', hsl, hsent⟩
        obtain ⟨e, he, rfl⟩ := hin.1 he'
        rw [(hg e).1] at hsl
        rw [if_pos hsl] at hsent
        exact ⟨e, he, hsl, hsent⟩
    · rw [hne j hj, hmem j]
      constructor
      · rintro ⟨e, he, rfl, hsent⟩
        exact ⟨e, hin.2 ⟨e, he, if_neg hj⟩, rfl, hsent⟩
      · rintro ⟨e', he', hsl, hsent⟩
        obtain ⟨e, he, rfl⟩ := hin.1 he'
        rw [(hg e).1] at hsl
        rw [if_neg (by rw [hsl]; exact hj)] at hsent
        exact ⟨e, he, hsl, hsent⟩
  · obtain ⟨e, he, rfl⟩ := hin.1 he'
    rw [(hg e).1, (hg e).2, slot_of_slots hslots]
    refine (hold e he).imp_right fun ⟨hr, hs⟩ => ⟨hr, ?_⟩
    split
    · next hei => exact hret e he hei ⟨_, by rw [← hei]; exact hr⟩
    · exact hs
  · rw [slot_of_slots hslots] at hj
    obtain ⟨e, he, rfl⟩ := (inFlight_iff s j).1 (hback j ref hj)
    exact (inFlight_iff t e.slot).2 ⟨_, hin.2 ⟨e, he, rfl⟩, (hg e).1⟩

theorem live_or_retiring_ne {s : State} (hs : s.ordersOk) {i : Slot} (hfree : s.slot i = .free) : ∀ e ∈ s.orders, e.slot ≠ i := by
  rintro e he rfl
  obtain ⟨-, -, -, hold, -⟩ := hs
  rcases hold e he with ⟨r, hr, -⟩ | ⟨hr, -⟩ <;> rw [hfree] at hr <;> cases hr

theorem Work.ordersOk {s t : State} (h : Work s t) : s.ordersOk → t.ordersOk := by
  cases h with
  | quiet _ table =>
    refine ordersOk_of_slots table.orders table.window (fun j r h => ⟨r, ?_, rfl⟩) fun j ref => ?_
    · rw [slot_of_slots table.slots, h]
    · rw [slot_of_slots table.slots]
  | relocate i r r' _ live ref slots _ orders window =>
    refine ordersOk_of_slots orders window (fun j x h => ?_) fun j x => ?_
    · rw [slot_of_setSlot slots]
      split
      · next hij => subst hij; rw [live] at h; cases h; exact ⟨r', rfl, ref⟩
      · exact ⟨x, h, rfl⟩
    · rw [slot_of_setSlot slots]
      split
      · next hij => subst hij; simp [live]
      · rfl
  | record i f ref =>
    rcases updRec_cases s i f with h | ⟨r, live, h⟩ <;> rw [h]
    · exact id
    · refine ordersOk_of_slots rfl rfl (fun j x h => ?_) fun j x => ?_
      · rw [slot_setSlot]
        split
        · next hij => subst hij; rw [live] at h; cases h; exact ⟨f r, rfl, ref r⟩
        · exact ⟨x, h, rfl⟩
      · rw [slot_setSlot]
        split
        · next hij => subst hij; simp [live]
        · rfl
  | join i r _ _ free _ _ _ slots _ orders window =>
    refine ordersOk_of_slots orders window (fun j x h => ?_) fun j x => ?_
    · rw [slot_of_setSlot slots]
      split
      · next hij => subst hij; rw [free] at h; cases h
      · exact ⟨x, h, rfl⟩
    · rw [slot_of_setSlot slots]
      split
      · next hij => subst hij; simp [free]
      · rfl
  | retireSent i r e _ live entry sent slots _ orders window =>
    rintro ⟨hn, hwn, hmem, hold, hback⟩
    obtain ⟨hei, he⟩ := entry?_slot entry
    refine ⟨by rw [orders]; exact hn, by rw [window]; exact hwn, fun j => by rw [orders, window]; exact hmem j,
      fun e' he' => ?_, fun j ref hj => ?_⟩
    · rw [orders] at he'
      rw [slot_of_setSlot slots]
      split
      · next hij =>
        have : e' = e := entry_unique hn he' he (by rw [← hij, hei])
        subst this
        rcases hold e' he' with ⟨r', hr', href⟩ | ⟨hr', _⟩
        · rw [← hij, live] at hr'; cases hr'; exact .inr ⟨by rw [href], sent⟩
        · rw [← hij, live] at hr'; cases hr'
      · exact hold e' he'
    · rw [inFlight_iff, orders, ← inFlight_iff]
      rw [slot_of_setSlot slots] at hj
      split at hj
      · next hij => exact (inFlight_iff s j).2 ⟨e, he, by rw [hei, hij]⟩
      · exact hback j ref hj
  | retireFree i r _ live slots _ orders window =>
    intro hs
    have hwindow : t.window = s.window.filter fun j => j != i := by
      refine window.elim id fun ⟨hf, h⟩ => ?_
      rw [h, eq_comm, List.filter_eq_self]
      obtain ⟨-, -, hmem, -, -⟩ := hs
      rintro j hj
      obtain ⟨e, he, rfl, -⟩ := (hmem j).1 hj
      simpa using (inFlight_eq_false s i).1 hf e he
    refine ordersOk_of_filter orders hwindow (fun j hj => ?_) ?_ hs
    · rw [slot_of_setSlot slots, if_neg (Ne.symm hj)]
    · rw [slot_of_setSlot slots, if_pos rfl]; simp
  | issue i r o m live settled =>
    rintro ⟨hn, hwn, hmem, hold, hback⟩
    have hnone := (inFlight_eq_false s i).1 settled
    refine ⟨?_, hwn, fun j => (hmem j).trans ?_, fun e he => ?_, fun j ref hj => ?_⟩
    · simp only [List.map_append, List.map_cons, List.map_nil, List.nodup_append]
      refine ⟨hn, by simp, fun a ha b hb => ?_⟩
      obtain ⟨e, he, rfl⟩ := List.mem_map.1 ha
      rw [List.mem_singleton.1 hb]
      exact hnone e he
    · simp [Entry.isSent]
    · rcases List.mem_append.1 he with he | he
      · exact hold e he
      · rw [List.mem_singleton.1 he]; exact .inl ⟨r, live, rfl⟩
    · obtain ⟨e, he, hs⟩ := (inFlight_iff s j).1 (hback j ref hj)
      exact (inFlight_iff _ j).2 ⟨e, List.mem_append_left _ he, hs⟩
  | send e d _ oldest =>
    have he : e ∈ s.orders := List.mem_of_find?_eq_some oldest
    have hwait : e.state = .waiting := by simpa using List.find?_some oldest
    intro hs
    have hout : e.slot ∉ s.window := by
      obtain ⟨hn, -, hmem, -, -⟩ := hs
      rw [hmem]
      rintro ⟨e', he', hsl, hsent⟩
      rw [entry_unique hn he' he hsl] at hsent
      simp [Entry.isSent, hwait] at hsent
    refine ordersOk_of_map (i := e.slot) rfl rfl (fun _ => ⟨rfl, rfl⟩) (fun hwn => ?_) (fun j hj => ?_) (fun _ => ?_)
      (fun _ _ _ _ _ => rfl) hs
    · simp only [List.nodup_append]
      exact ⟨hwn, by simp, fun a ha b hb => by rw [List.mem_singleton.1 hb]; rintro rfl; exact hout ha⟩
    · simp [hj]
    · simp only [List.mem_append, List.mem_singleton, or_true, true_iff]
      exact ⟨e, he, rfl, rfl⟩
  | entry i e g at' keeps sent =>
    obtain ⟨hei, he⟩ := entry?_slot at'
    have heq (hs : s.ordersOk) {e' : Entry} (he' : e' ∈ s.orders) (hsl : e'.slot = i) : e' = e := by
      obtain ⟨hn, -⟩ := hs
      exact entry_unique hn he' he (by rw [hsl, hei])
    refine ordersOk_of_map rfl rfl keeps id (fun _ _ => Iff.rfl) (fun hs => ?_) (fun hs e' he' hsl ⟨ref, hret⟩ => ?_)
    · obtain ⟨-, -, hmem, -, -⟩ := id hs
      show i ∈ s.window ↔ _
      rw [hmem i]
      refine exists_congr fun e' => and_congr_right fun he' => and_congr_right fun hsl => ?_
      rw [heq hs he' hsl, sent]
    · rw [heq hs he' hsl, sent]
      obtain ⟨-, -, -, hold, -⟩ := hs
      rcases hold e he with ⟨r, hr, -⟩ | ⟨-, hsent⟩
      · rw [hei, hret] at hr; cases hr
      · exact hsent
  | rest i r g live keeps =>
    refine ordersOk_of_map (i := i) rfl rfl (fun e => ⟨(keeps e).1, (keeps e).2.1⟩) (fun hwn => hwn.filter _)
      (fun j hj => by simp [hj]) (fun _ => ?_) (fun _ _ _ _ ⟨ref, hret⟩ => by rw [live] at hret; cases hret)
    simp [(keeps _).2.2]
  | respond i live => exact ordersOk_of_filter rfl rfl (fun _ _ => rfl) live
  | respondRetiring i ref retiring =>
    exact ordersOk_of_filter (i := i) rfl rfl (fun j hj => slot_setSlot_ne _ _ _ _ (Ne.symm hj)) (by simp)
  | linkUp => exact id
  | emptied _ _ slots orders window =>
    intro _
    exact ⟨by simp [orders], by simp [window], by simp [orders, window], by simp [orders], by simp [slots]⟩

end Sys2Proof.Machine
end

section
/-! PROOFS. Every operation of the model is an event, that is a sequence of the kinds of work; and so is every step. -/

namespace Sys2Proof.Machine

/-! ### Work that leaves the tables alone -/

/-- Quiet work that leaves the Call Table, the order list, the send window and the queue list. -/
structure Calm (s t : State) : Prop where
  quiet : Quiet s t
  table : SameTable s t

namespace Calm

theorem refl (s : State) : Calm s s := ⟨.refl s, .refl s⟩

theorem trans {s t u : State} (h : Calm s t) (h' : Calm t u) : Calm s u :=
  ⟨h.quiet.trans h'.quiet, h.table.trans h'.table⟩

theorem event {s t : State} (h : Calm s t) : Event s t := .of_quiet h.quiet h.table

theorem foldl {α : Type} (f : State → α → State) (hf : ∀ s a, Calm s (f s a)) (xs : List α) (s : State) :
    Calm s (xs.foldl f s) := foldl_related refl trans f hf xs s

end Calm

theorem quiet_of_same {s t : State} (hp : t.positions = s.positions) (hl : t.link = s.link) (hn : t.night = s.night)
    (hd : t.nightDelay = s.nightDelay) : Quiet s t := by
  have hpos (p : Pos) : t.pos p = s.pos p := by unfold State.pos; rw [hp]
  exact ⟨hl, nightOk_of_same hn hd fun p => by rw [hpos], fun p => by rw [hpos]; exact .refl _⟩

theorem quiet_setSlot (s : State) (i : Slot) (x : SlotState) : Quiet s (s.setSlot i x) := quiet_of_same rfl rfl rfl rfl

theorem keeps_updPos {s : State} {p : Pos} {f : Position → Position} (hk : (s.pos p).Keeps (f (s.pos p))) (q : Pos) :
    (s.pos q).Keeps ((s.updPos p f).pos q) := by
  rw [pos_updPos]
  split
  · next h => subst h; exact hk
  · exact .refl _

theorem calm_updPos {s : State} {p : Pos} {f : Position → Position} (hst : (f (s.pos p)).state = (s.pos p).state)
    (hk : (s.pos p).Keeps (f (s.pos p))) : Calm s (s.updPos p f) := by
  refine ⟨⟨rfl, nightOk_of_same rfl rfl fun q => ?_, keeps_updPos hk⟩, rfl, rfl, rfl, rfl⟩
  rw [pos_updPos]
  split
  · next h => subst h; exact hst
  · rfl

theorem raiseLoop_state (q : Position) (now : Tick) (k : AlertKind) (l : LoopNo) : (q.raiseLoop now k l).state = q.state := by
  rw [raiseLoop_frame]

theorem raiseKind_state (q : Position) (now : Tick) (k : AlertKind) : (q.raiseKind now k).state = q.state := by
  rw [raiseKind_frame]

/-- A staffed position that stays staffed leaves the night state as it is (R61). -/
theorem quiet_staffed {s : State} {p : Pos} {f : Position → Position} (hk : (s.pos p).Keeps (f (s.pos p)))
    (hold : (s.pos p).state.staffed = true) (hnew : (f (s.pos p)).state.staffed = true) : Quiet s (s.updPos p f) := by
  refine ⟨rfl, fun ⟨hday, hdelay⟩ => ⟨hday.trans ?_, hdelay⟩, keeps_updPos hk⟩
  have h1 := (staffed_iff _).1 hold
  have h2 := (staffed_iff _).1 hnew
  exact iff_of_true ⟨p, h1⟩ ⟨p, by rw [pos_updPos_self]; exact h2⟩

theorem calm_raiseLoop (s : State) (p : Pos) {k : AlertKind} (hk : k.positionLevel = false) (l : LoopNo) :
    Calm s (s.raiseLoop p k l) := calm_updPos (raiseLoop_state _ _ _ _) (raiseLoop_keeps _ _ hk l)

theorem calm_raiseKind (s : State) (p : Pos) {k : AlertKind} (hk : k.positionLevel = true) : Calm s (s.raiseKind p k) :=
  calm_updPos (raiseKind_state _ _ _) (raiseKind_keeps _ _ hk)

theorem calm_orderFailed (s : State) (p : Pos) (l : LoopNo) : Calm s (s.orderFailed p l) := calm_raiseLoop s p rfl l

theorem calm_errorTone (s : State) (p : Pos) : Calm s (s.errorTone p) :=
  calm_updPos (by rw [sound_eq]) (sound_keeps _ _)

theorem calm_setLoop (s : State) (p : Pos) (l : LoopNo) (x : LoopState) : Calm s (s.setLoop p l x) :=
  calm_updPos rfl (setLoop_keeps _ _ _)

theorem calm_loopIdle (s : State) (p : Pos) (l : LoopNo) : Calm s (s.loopIdle p l) :=
  calm_updPos rfl ((setLoop_keeps _ _ _).trans (dropLoopAlert_keeps _ _))

theorem calm_loopConnecting (s : State) (p : Pos) (l : LoopNo) (i : Slot) : Calm s (s.loopConnecting p l i) := by
  have hdrop : (s.pos p).Keeps (((s.pos p).setLoop l (.connecting i)).dropKindAt l .offer) :=
    (setLoop_keeps _ _ _).trans (dropKindAt_keeps _ _ _)
  exact calm_updPos rfl (hdrop.trans (.of_same rfl rfl rfl rfl rfl))

theorem calm_noteFor (s : State) (p : Pos) (l : LoopNo) (call : Option Slot) (content : List Byte) :
    Calm s (s.noteFor p l call content) :=
  calm_updPos (f := fun q => { q with note := some ⟨s.tagLine call l, content⟩ }) rfl (.of_same rfl rfl rfl rfl rfl)

theorem calm_setOrbit (s : State) (o : OrbitNo) (x : Orbit) : Calm s (s.setOrbit o x) :=
  ⟨quiet_of_same rfl rfl rfl rfl, rfl, rfl, rfl, rfl⟩

theorem calm_freeOrbits (s : State) (i : Slot) : Calm s (s.freeOrbits i) :=
  ⟨quiet_of_same rfl rfl rfl rfl, rfl, rfl, rfl, rfl⟩

theorem calm_transmit (s : State) (m : XMsg) : Calm s (s.transmit m) := ⟨quiet_of_same rfl rfl rfl rfl, rfl, rfl, rfl, rfl⟩

theorem calm_refreshPos (s : State) (p : Pos) : Calm s (s.refreshPos p) := by
  unfold State.refreshPos
  split
  · have hkeeps (its : List Item) (q : Position) :
        q.Keeps (its.foldl (fun q it => q.queueItem it (s.itemDiffers p it)) q) :=
      foldl_related .refl .trans _ (fun q it => queueItem_keeps q it _) its q
    exact calm_updPos (by rw [queueItems_frame]) (hkeeps _ _)
  · exact .refl s

theorem calm_refresh (s : State) : Calm s s.refresh := .foldl _ calm_refreshPos _ s

theorem calm_thresholdCheck (s : State) (t : TenantNo) : Calm s (s.thresholdCheck t) := by
  unfold State.thresholdCheck
  simp only
  split
  · refine .foldl _ (fun u p => ?_) _ s
    split
    · exact calm_raiseKind u p rfl
    · exact .refl u
  · exact .refl s

/-- Leaving a holder touches the queue list only for a QUEUED record. -/
theorem quiet_leaveHolder (s : State) (i : Slot) : Quiet s (s.leaveHolder i) := by
  unfold State.leaveHolder
  split
  · split
    · exact quiet_of_same rfl rfl rfl rfl
    · exact (calm_loopIdle _ _ _).quiet
    · exact quiet_of_same rfl rfl rfl rfl
    · exact quiet_of_same rfl rfl rfl rfl
    · exact .refl s
    · exact .refl s
  · exact .refl s

theorem leaveHolder_queue {s : State} {i : Slot} {r : Record} (h : s.slot i = .live r) :
    (s.leaveHolder i).queue = if r.loc = .queued then s.queue.filter fun j => j != i else s.queue := by
  have hr := (record?_eq_some s i).2 h
  unfold State.leaveHolder
  simp only [hr]
  cases hl : r.loc <;> simp [State.loopIdle, State.freeOrbits]

@[simp] theorem leaveHolder_slot (s : State) (i j : Slot) : (s.leaveHolder i).slot j = s.slot j :=
  slot_of_slots (leaveHolder_slots s i) j

@[simp] theorem leaveHolder_record? (s : State) (i j : Slot) : (s.leaveHolder i).record? j = s.record? j := by
  unfold State.record?
  rw [leaveHolder_slot]

theorem calm_leaveHolder {s : State} {i : Slot} (h : ∀ r, s.slot i = .live r → r.loc ≠ .queued) : Calm s (s.leaveHolder i) := by
  refine ⟨quiet_leaveHolder s i, leaveHolder_slots s i, leaveHolder_orders s i, leaveHolder_window s i, ?_⟩
  cases hs : s.record? i with
  | none => simp [State.leaveHolder, hs]
  | some r =>
    have hr := (record?_eq_some s i).1 hs
    rw [leaveHolder_queue hr, if_neg (h r hr)]

/-! ### Records and their timers -/

theorem event_updRec {s : State} {i : Slot} {f : Record → Record} (ref : ∀ r, (f r).ref = r.ref)
    (loc : ∀ r, s.slot i = .live r → ((f r).loc = .queued ↔ r.loc = .queued)) : Event s (s.updRec i f) :=
  .of_work (.record i f ref loc)

theorem event_armNow (s : State) (i : Slot) (pu : Purpose) (iv : Interval) : Event s (s.armNow i pu iv) :=
  event_updRec (fun _ => rfl) fun _ _ => Iff.rfl

theorem event_armFrom (s : State) (i : Slot) (pu : Purpose) (d : Tick) (iv : Interval) : Event s (s.armFrom i pu d iv) :=
  event_updRec (fun _ => rfl) fun _ _ => Iff.rfl

theorem event_armAging (s : State) (i : Slot) : Event s (s.armAging i) :=
  event_updRec (fun r => by split <;> rfl) fun r _ => by split <;> rfl

theorem event_setStep (s : State) (i : Slot) (n : Fin 7) : Event s (s.setStep i n) :=
  event_updRec (fun _ => rfl) fun _ _ => Iff.rfl

theorem event_disarm (s : State) (i : Slot) : Event s (s.updRec i Record.disarm) :=
  event_updRec (fun _ => rfl) fun _ _ => Iff.rfl

/-! ### Orders -/

theorem event_issue (s : State) (i : Slot) (o : Order) (m : Mark) : Event s (s.issue i o m) := by
  rcases issue_cases s i o m with h | ⟨r, hr, hf, h⟩ <;> rw [h]
  exact .of_work (.issue i r o m ((record?_eq_some s i).1 hr) hf)

theorem event_nightDivert (s : State) (i : Slot) : Event s (s.nightDivert i) := by
  unfold State.nightDivert
  split
  · exact event_issue _ _ _ _
  · exact .refl

theorem event_nightJoin (s : State) (i : Slot) : Event s (s.nightJoin i) := by
  unfold State.nightJoin
  split
  · exact event_nightDivert s i
  · exact .refl

theorem event_foldl {α : Type} (f : State → α → State) (hf : ∀ s a, Event s (f s a)) (xs : List α) (s : State) :
    Event s (xs.foldl f s) := foldl_related (fun _ => .refl) .trans f hf xs s

theorem event_sendOne (s : State) : Event s s.sendOne := by
  rcases sendOne_cases s with h | ⟨e, hm, he, h⟩ <;> rw [h]
  have hroom : s.window.length < 8 := by
    simp only [State.maySend, Bool.and_eq_true, decide_eq_true_eq] at hm
    exact hm.2
  exact .of_work (.send e _ hroom he)

theorem event_sendOrders (s : State) : Event s s.sendOrders := event_foldl _ (fun s _ => event_sendOne s) _ s

theorem event_finishOrders (s : State) : Event s s.finishOrders := (event_sendOrders s).trans (calm_refresh _).event

/-! ### Offers -/

theorem event_offer (s : State) (p : Pos) (l : LoopNo) (i : Slot) : Event s (s.offer p l i) := by
  unfold State.offer
  have hmark : Event s (s.updRec i fun r => { r with mark := some (p, l) }) :=
    event_updRec (fun _ => rfl) fun _ _ => Iff.rfl
  have harm := hmark.trans (event_armNow _ i .offer s.timing.offer)
  have hring := harm.trans ((calm_setLoop _ p l (.alerting i)).trans (calm_raiseLoop _ p (k := .offer) rfl l)).event
  exact hring.trans (Event.of_quiet (quiet_of_same rfl rfl rfl rfl) ⟨rfl, rfl, rfl, rfl⟩)

theorem event_offerOnce (s : State) : Event s s.offerOnce := by
  rcases offerOnce_cases s with h | ⟨p, l, i, -, h⟩ <;> rw [h]
  exact event_offer s p l i

theorem event_makeOffers (s : State) : Event s s.makeOffers := event_foldl _ (fun s _ => event_offerOnce s) _ s

theorem event_finishOffers (s : State) : Event s s.finishOffers := (event_makeOffers s).trans (event_finishOrders _)

/-! ### Calls that go from one holder to another -/

/-- The record of a slot leaves its holder for a location other than the queue. -/
theorem event_leave_then {s : State} (i : Slot) (f : Record → Record) (ref : ∀ r, (f r).ref = r.ref)
    (loc : ∀ r, (f r).loc ≠ .queued) : Event s ((s.leaveHolder i).updRec i f) := by
  have hq := quiet_leaveHolder s i
  cases hr : s.record? i with
  | none =>
    rw [updRec_none _ _ (by simpa using hr)]
    exact (calm_leaveHolder fun r h => by rw [(record?_eq_some s i).2 h] at hr; cases hr).event
  | some r =>
    have live := (record?_eq_some s i).1 hr
    have hnew : (s.leaveHolder i).updRec i f = (s.leaveHolder i).setSlot i (.live (f r)) :=
      updRec_slots_of_live (by simpa using live) f
    rw [hnew]
    refine .of_work (.relocate i r (f r) (hq.trans (quiet_of_same rfl rfl rfl rfl)) live (ref r) ?_ ?_ ?_ ?_)
    · simp [State.setSlot]
    · rw [setSlot_queue, leaveHolder_queue live]; simp [queueMoved, loc r]
    · simp
    · simp

theorem tenantOf_of_live {s : State} {i : Slot} {r : Record} (h : s.slot i = .live r) : s.tenantOf i = some r.tenant := by
  simp [State.tenantOf, (record?_eq_some s i).2 h]

theorem quiet_joinTail (s : State) (i : Slot) : Quiet s (s.joinTail i) := by
  unfold State.joinTail
  split
  · exact Quiet.trans (t := { s with queue := s.queue ++ [i] }) (quiet_of_same rfl rfl rfl rfl)
      (calm_thresholdCheck _ _).quiet
  · exact .refl s

theorem joinTail_queue_live {s : State} {i : Slot} {r : Record} (h : s.slot i = .live r) :
    (s.joinTail i).queue = s.queue ++ [i] := joinTail_queue (tenantOf_of_live h)

theorem armAging_frame (s : State) (i : Slot) : s.armAging i = { s with slots := (s.armAging i).slots } := updRec_frame s i _

theorem setSlot_setSlot (s : State) (i : Slot) (x y : SlotState) : (s.setSlot i x).setSlot i y = s.setSlot i y := by
  simp [State.setSlot, Vector.set_set]

/-- A recall (R44): the record takes its new form, joins the queue's tail, and is diverted in NIGHT. -/
theorem recall_live {s : State} {i : Slot} {r : Record} (h : s.slot i = .live r) (why : RecallReason) (owner : Option Pos) :
    s.recall i why owner = ((s.setSlot i (.live (s.recalled r why owner))).joinTail i).nightJoin i := by
  unfold State.recall
  simp only [updRec_slots_of_live h]
  rw [armAging_live (by rw [record?_eq_some]; exact slot_setSlot_self _ _ _), setSlot_setSlot]
  rfl

theorem event_recallFrom (s : State) (i : Slot) (why : RecallReason) (owner : Option Pos) :
    Event s (s.recallFrom i why owner) := by
  unfold State.recallFrom
  cases hr : s.record? i with
  | none =>
    have hs : (s.leaveHolder i).record? i = none := by simpa using hr
    have hnone : (s.leaveHolder i).recall i why owner = s.leaveHolder i := by
      simp [State.recall, updRec_none _ _ hs, State.armAging, State.joinTail, State.tenantOf, hs, State.nightJoin,
        State.nightDivert]
    rw [hnone]
    exact (calm_leaveHolder fun r h => by rw [(record?_eq_some s i).2 h] at hr; cases hr).event
  | some r =>
    have live := (record?_eq_some s i).1 hr
    rw [recall_live (by simpa using live)]
    refine Relation.ReflTransGen.trans (Event.of_work (.relocate i r ((s.leaveHolder i).recalled r why owner) ?_ live rfl ?_ ?_
      ?_ ?_)) (event_nightJoin _ _)
    · exact ((quiet_leaveHolder s i).trans (quiet_setSlot _ i _)).trans (quiet_joinTail _ _)
    · rw [joinTail_frame]; simp [State.setSlot]
    · rw [joinTail_queue_live (slot_setSlot_self _ _ _), setSlot_queue, leaveHolder_queue live]
      simp [queueMoved, State.recalled]
    · rw [joinTail_frame]; simp
    · rw [joinTail_frame]; simp


/-- Retirement (R15): the record leaves the table, its queue place and, unless SENT, the order list. -/
theorem event_retire (s : State) (i : Slot) (gone : Bool) : Event s (s.retire i gone) := by
  unfold State.retire
  cases hr : s.record? i with
  | none => exact .refl
  | some r =>
    simp only
    have live := (record?_eq_some s i).1 hr
    generalize hn : (if gone = true then
      r.loops.foldl (fun t pl => t.noteFor pl.1 pl.2 (some i) AlertKind.callerGone.text) s else s) = noted
    have hnote : Calm s noted := by
      subst hn
      split
      · exact .foldl _ (fun t (pl : Pos × LoopNo) => calm_noteFor t pl.1 pl.2 _ _) _ s
      · exact .refl s
    have live' : noted.slot i = .live r := by rw [slot_of_slots hnote.table.slots, live]
    generalize hidle : r.loops.foldl (fun t pl => t.loopIdle pl.1 pl.2) ((noted.leaveHolder i).freeOrbits i) = idle
    have hcalm : Calm (noted.leaveHolder i) idle := by
      subst hidle
      exact (calm_freeOrbits _ i).trans (.foldl _ (fun t (pl : Pos × LoopNo) => calm_loopIdle t pl.1 pl.2) _ _)
    have hslots : idle.slots = noted.slots := by rw [hcalm.table.slots, leaveHolder_slots]
    have horders : idle.orders = noted.orders := by rw [hcalm.table.orders, leaveHolder_orders]
    have hwindow : idle.window = noted.window := by rw [hcalm.table.window, leaveHolder_window]
    have hqueue : idle.queue = queueMoved noted.queue i r.loc (.loop 0 0) := by
      rw [hcalm.table.queue, leaveHolder_queue live']; simp [queueMoved]
    have hquiet : Quiet noted idle := (quiet_leaveHolder noted i).trans hcalm.quiet
    have hset (x : SlotState) : (idle.setSlot i x).slots = (noted.setSlot i x).slots := by simp [State.setSlot, hslots]
    have hentry : idle.entry? i = noted.entry? i := by unfold State.entry?; rw [horders]
    have hfreed : Event noted (idle.freeSlot i r.ref) := by
      rcases freeSlot_cases idle i r.ref with ⟨e, he, hsent, h⟩ | ⟨e, he, hsent, h⟩ | ⟨he, h⟩ <;> rw [h]
      · exact .of_work (.retireSent i r e (hquiet.trans (quiet_setSlot _ _ _)) live' (hentry ▸ he) hsent (hset _) hqueue horders
          hwindow)
      · refine .of_work (.retireFree i r (hquiet.trans ?_) live' ?_ hqueue ?_ ?_)
        · exact quiet_of_same rfl rfl rfl rfl
        · exact hset _
        · simp [State.dropEntry, horders]
        · exact .inl (by simp [State.dropEntry, hwindow])
      · have hnone : ∀ e ∈ noted.orders, e.slot ≠ i := by
          rw [hentry] at he
          simpa [State.entry?] using he
        refine .of_work (.retireFree i r (hquiet.trans (quiet_setSlot _ _ _)) live' (hset _) hqueue ?_ ?_)
        · rw [setSlot_orders, horders, eq_comm, List.filter_eq_self]
          simpa using hnone
        · exact .inr ⟨(inFlight_eq_false _ _).2 hnone, hwindow⟩
    refine hnote.event.trans (hfreed.trans ?_)
    split
    · exact (Calm.foldl _ (fun t (pl : Pos × LoopNo) => calm_raiseLoop t pl.1 rfl pl.2) _ _).event
    · exact .refl


/-- A record that is not QUEUED takes another location that is not the queue. -/
theorem event_placed {s : State} {i : Slot} {f : Record → Record} (ref : ∀ r, (f r).ref = r.ref) (loc : ∀ r, (f r).loc ≠ .queued)
    (h : ∀ r, s.slot i = .live r → r.loc ≠ .queued) : Event s (s.updRec i f) :=
  event_updRec ref fun r hr => iff_of_false (loc r) (h r hr)

theorem event_placeInOrbit {s : State} {i : Slot} (h : ∀ r, s.slot i = .live r → r.loc ≠ .queued) (o : OrbitNo) (p : Pos) :
    Event s (s.placeInOrbit i o p) := by
  have hput : Event (s.setOrbit o (.occupied i)) ((s.setOrbit o (.occupied i)).updRec i fun r =>
      { r with loc := .parked o, owner := some p }) :=
    event_placed (fun _ => rfl) (fun _ => by simp) h
  exact ((calm_setOrbit s o _).event.trans hput).trans (event_armNow _ _ _ _)

theorem event_campAt {s : State} {i : Slot} (h : ∀ r, s.slot i = .live r → r.loc ≠ .queued) (ext : Digits) :
    Event s (s.campAt i ext) := by
  have htable : Event s { s with camp := campWith s.camp ext i } :=
    .of_quiet (quiet_of_same rfl rfl rfl rfl) ⟨rfl, rfl, rfl, rfl⟩
  have hput : Event { s with camp := campWith s.camp ext i } ({ s with camp := campWith s.camp ext i }.updRec i fun r =>
      { r with loc := .camped ext, dest := some ext, step := 0 }) :=
    event_placed (fun _ => rfl) (fun _ => by simp) h
  exact (htable.trans hput).trans (event_armNow _ _ _ _)

theorem event_extendTo {s : State} {i : Slot} (h : ∀ r, s.slot i = .live r → r.loc ≠ .queued) (ext : Digits)
    (owner : Option Pos) : Event s (s.extendTo i ext owner) := by
  have hput : Event s (s.updRec i fun r => { r with loc := .extended ext, dest := some ext, step := 0, owner := owner }) :=
    event_placed (fun _ => rfl) (fun _ => by simp) h
  exact hput.trans (event_armNow _ _ _ _)

theorem updRec_setOrbit (s : State) (i : Slot) (f : Record → Record) (o : OrbitNo) (x : Orbit) :
    (s.setOrbit o x).updRec i f = (s.updRec i f).setOrbit o x := by
  rcases updRec_cases s i f with h | ⟨r, hr, h⟩
  · rw [h]
    rcases updRec_cases (s.setOrbit o x) i f with h' | ⟨r, hr, h'⟩
    · exact h'
    · have hr' : s.slot i = .live r := hr
      rw [updRec_slots_of_live hr'] at h
      rw [h', show (s.setOrbit o x).setSlot i (.live (f r)) = (s.setSlot i (.live (f r))).setOrbit o x from rfl, h]
  · rw [h, updRec_slots_of_live (by simpa using hr)]
    rfl

/-- A call leaves its holder, whatever that is, for an orbit. -/
theorem event_leave_placeInOrbit (s : State) (i : Slot) (o : OrbitNo) (p : Pos) :
    Event s ((s.leaveHolder i).placeInOrbit i o p) := by
  have hput : Event s ((s.leaveHolder i).updRec i fun r => { r with loc := .parked o, owner := some p }) :=
    event_leave_then i _ (fun _ => rfl) fun _ => by simp
  have horbit := hput.trans (calm_setOrbit _ o (.occupied i)).event
  rw [← updRec_setOrbit] at horbit
  exact horbit.trans (event_armNow _ _ _ _)

/-! ### Expiries -/

theorem event_overflowTest (s : State) (i : Slot) : Event s (s.overflowTest i) := by
  unfold State.overflowTest
  split
  · simp only
    split
    · split
      · exact event_issue _ _ _ _
      · exact .refl
    · exact .refl
  · exact .refl

theorem event_agingDue (s : State) (i : Slot) (d : Tick) : Event s (s.agingDue i d) := by
  refine Relation.ReflTransGen.trans ?_ (event_overflowTest _ _)
  refine event_updRec (fun r => ?_) fun r _ => ?_
  · simp only
    generalize (if r.aging < Config.agingCeiling then r.aging + 1 else r.aging) = steps
    split <;> rfl
  · simp only
    generalize (if r.aging < Config.agingCeiling then r.aging + 1 else r.aging) = steps
    split <;> rfl

theorem event_offerDue (s : State) (i : Slot) : Event s (s.offerDue i) := by
  unfold State.offerDue
  split
  · split
    · next p l _ =>
      have hmark : Event s (s.updRec i fun r => { r with mark := none }) := event_updRec (fun _ => rfl) fun _ _ => Iff.rfl
      have hidle := (hmark.trans (event_armAging _ i)).trans (calm_loopIdle _ p l).event
      simp only
      split
      · next hopen => exact hidle.trans ((Event.of_quiet (quiet_staffed (.of_same rfl rfl rfl rfl rfl) (by rw [hopen]; rfl) rfl)
          ⟨rfl, rfl, rfl, rfl⟩).trans (calm_raiseKind _ p rfl).event)
      · exact hidle
    · exact .refl
  · exact .refl

/-- Where a slot is LIVE with a location known not to be the queue. -/
theorem notQueued_of_live {s : State} {i : Slot} {r : Record} (h : s.slot i = .live r) (hl : r.loc ≠ .queued) :
    ∀ r', s.slot i = .live r' → r'.loc ≠ .queued := fun r' h' => by rw [h] at h'; cases h'; exact hl

theorem event_holdRecallDue (s : State) (i : Slot) (d : Tick) : Event s (s.holdRecallDue i d) := by
  unfold State.holdRecallDue
  split
  · next p l _ => exact ((calm_setLoop _ p l _).trans (calm_raiseLoop _ p rfl l)).event.trans (event_armFrom _ _ _ _ _)
  · exact .refl

theorem event_escalateDue (s : State) (i : Slot) : Event s (s.escalateDue i) := by
  unfold State.escalateDue
  split
  · exact event_recallFrom _ _ _ _
  · exact .refl

theorem event_parkRecallDue (s : State) (i : Slot) : Event s (s.parkRecallDue i) := by
  unfold State.parkRecallDue
  split
  · exact event_recallFrom _ _ _ _
  · exact .refl

theorem event_retrieveDue (s : State) (i : Slot) : Event s (s.retrieveDue i) :=
  (event_issue s i .retrieve .none).trans (event_updRec (fun _ => rfl) fun _ _ => Iff.rfl)

theorem event_deliver (s : State) (i : Slot) (pu : Purpose) (d : Tick) : Event s (s.deliver i pu d) := by
  cases pu with
  | aging => exact event_agingDue s i d
  | offer => exact event_offerDue s i
  | holdRecall => exact event_holdRecallDue s i d
  | escalate => exact event_escalateDue s i
  | noAnswer => exact event_retrieveDue s i
  | campTimeout => exact event_retrieveDue s i
  | parkRecall => exact event_parkRecallDue s i

theorem event_expiry (s : State) (i : Slot) (pu : Purpose) {finish : State → State} (hf : ∀ u, Event u (finish u)) :
    Event s (s.expiry i pu finish) := by
  rcases expiry_cases s i pu finish with h | ⟨-, h⟩ | ⟨r, t, -, -, -, -, -, -, h⟩ <;> rw [h]
  · exact event_updRec (fun _ => rfl) fun _ _ => Iff.rfl
  · exact (event_deliver s i pu _).trans (hf _)

/-! ### Claims -/

theorem event_grant (s : State) (p : Pos) (l : LoopNo) (i : Slot) : Event s (s.grant p l i) := by
  have hclaim : Event s (s.updRec i fun r =>
      let r1 := { r with claim := some ⟨p, l, true⟩ }
      if r.mark = some (p, l) then { r1 with mark := none }.disarm else r1) := by
    refine event_updRec (fun r => ?_) fun r _ => ?_
    · simp only; split <;> rfl
    · simp only; split <;> rfl
  exact (hclaim.trans (calm_loopConnecting _ p l i).event).trans (event_issue _ _ _ _)

theorem event_claimRequest (s : State) (p : Pos) (l : LoopNo) (i : Slot) (how : Request) :
    Event s (s.claimRequest p l i how) := by
  unfold State.claimRequest
  split
  · split
    · exact (calm_errorTone s p).event
    · split
      · have hclaim : Event s (s.updRec i fun r => { r with claim := some ⟨p, l, false⟩ }) :=
          event_updRec (fun _ => rfl) fun _ _ => Iff.rfl
        exact hclaim.trans (calm_loopConnecting _ p l i).event
      · split
        · exact event_grant s p l i
        · exact (calm_errorTone s p).event
  · exact (calm_errorTone s p).event

theorem event_reexamine (s : State) (i : Slot) : Event s (s.reexamine i) := by
  rcases reexamine_cases s i with h | ⟨r, c, -, -, -, -, ⟨-, h⟩ | ⟨-, h⟩⟩ <;> rw [h]
  · have hclaim : Event s (s.updRec i fun r => { r with claim := some ⟨c.pos, c.loop, true⟩ }) :=
      event_updRec (fun _ => rfl) fun _ _ => Iff.rfl
    exact hclaim.trans (event_issue _ _ _ _)
  · have hclaim : Event s (s.updRec i fun r => { r with claim := none }) := event_updRec (fun _ => rfl) fun _ _ => Iff.rfl
    exact hclaim.trans ((calm_loopIdle _ _ _).trans (calm_errorTone _ _)).event

theorem event_claimDone (s : State) (i : Slot) (c : Claim) : Event s (s.claimDone i c) :=
  (event_leave_then i (fun r => { r with loc := .loop c.pos c.loop, claim := none, owner := some c.pos }.disarm)
    (fun _ => rfl) fun _ => by simp [Record.disarm]).trans (calm_setLoop _ _ _ _).event

theorem event_claimRefused (s : State) (i : Slot) (c : Claim) : Event s (s.claimRefused i c) := by
  unfold State.claimRefused
  have hclaim : Event s (s.updRec i fun r => { r with claim := none }) := event_updRec (fun _ => rfl) fun _ _ => Iff.rfl
  refine Relation.ReflTransGen.trans (hclaim.trans ?_) ((calm_loopIdle _ _ _).trans (calm_raiseLoop _ _ rfl _)).event
  split
  · split
    · exact event_armAging _ _
    · exact .refl
  · exact .refl

theorem event_settleHeld (s : State) (i : Slot) : Event s (s.settleHeld i) := by
  unfold State.settleHeld
  split
  · split
    · split
      · split
        · exact .refl
        · have hheld : Event s (s.updRec i fun r => { r with held := none }) := event_updRec (fun _ => rfl) fun _ _ => Iff.rfl
          exact hheld.trans (event_deliver _ _ _ _)
      · exact event_updRec (fun _ => rfl) fun _ _ => Iff.rfl
    · exact event_updRec (fun _ => rfl) fun _ _ => Iff.rfl
    · exact .refl
  · exact .refl

/-! ### Rescue -/

theorem event_enterRescue (s : State) (i : Slot) (m : Rescue) : Event s (s.enterRescue i m) :=
  event_leave_then i _ (fun _ => rfl) fun _ => by simp [Record.disarm]

theorem event_rescueSettled (s : State) (p : Pos) (st : LoopState) (i : Slot) : Event s (s.rescueSettled p st i) := by
  have htransfer (m : Rescue) (k : Mark) : Event s (((s.enterRescue i m).issue i .transfer k).setStep i 6) :=
    ((event_enterRescue s i m).trans (event_issue _ _ _ _)).trans (event_setStep _ _ _)
  cases st with
  | idle => exact .refl
  | alerting _ => exact .refl
  | connecting _ => exact .refl
  | talk _ => exact (event_enterRescue s i _).trans (event_issue _ _ _ _)
  | held _ => exact event_recallFrom _ _ _ _
  | recalling _ => exact event_recallFrom _ _ _ _
  | locked _ => exact (event_enterRescue s i _).trans (event_issue _ _ _ _)
  | extend _ =>
    unfold State.rescueSettled
    simp only
    split
    · split
      · exact htransfer _ _
      · split
        · exact htransfer _ _
        · exact event_recallFrom _ _ _ _
    · exact .refl

theorem event_rescueLoop (s : State) (p : Pos) (l : LoopNo) : Event s (s.rescueLoop p l) := by
  have hidle := (calm_loopIdle s p l).event
  have hheld (st : LoopState) (i : Slot) : Event s
      (if s.inFlight i then (s.loopIdle p l).rescueInFlight p st i else (s.loopIdle p l).rescueSettled p st i) := by
    split
    · exact hidle.trans (event_enterRescue _ _ _)
    · exact hidle.trans (event_rescueSettled _ _ _ _)
  unfold State.rescueLoop
  cases s.loop p l with
  | idle => exact .refl
  | alerting i =>
    have hmark : Event (s.loopIdle p l) ((s.loopIdle p l).updRec i fun r => { r with mark := none }) :=
      event_updRec (fun _ => rfl) fun _ _ => Iff.rfl
    exact (hidle.trans hmark).trans (event_armAging _ _)
  | connecting i =>
    simp only
    split
    · split
      · exact hidle.trans (event_enterRescue _ _ _)
      · exact hidle.trans (event_updRec (fun _ => rfl) fun _ _ => Iff.rfl)
    · exact hidle
  | talk i => exact hheld _ i
  | held i => exact hheld _ i
  | recalling i => exact hheld _ i
  | extend i => exact hheld _ i
  | locked i => exact hheld _ i

/-- The night state when a position that was staffed stops being so (R62). -/
theorem nightOk_nowUnstaffed {s : State} {p : Pos} {f : Position → Position} (hold : (s.pos p).state.staffed = true)
    (hs : s.nightOk) : (s.updPos p f).nowUnstaffed.nightOk := by
  obtain ⟨hday, hdelay⟩ := hs
  have hnight : s.night = .day := hday.2 ⟨p, (staffed_iff _).1 hold⟩
  have hany (u : State) : u.anyStaffed = true ↔ ∃ q, (u.pos q).state = .opened ∨ (u.pos q).state = .withdrawn := by
    simp only [State.anyStaffed, allPos, List.any_eq_true, staffed_iff]
    exact exists_congr fun q => ⟨And.right, fun h => ⟨by fin_cases q <;> simp, h⟩⟩
  unfold State.nowUnstaffed
  split
  · next h =>
    refine ⟨iff_of_true hnight ((hany _).1 h), ?_⟩
    simpa [hnight] using hdelay
  · next h =>
    refine ⟨iff_of_false (by simp) fun hex => h ((hany _).2 hex), by simp⟩

/-- A position that is not staffed changes to a state that is not staffed. -/
theorem quiet_unstaffed {s : State} {p : Pos} {f : Position → Position} (hk : (s.pos p).Keeps (f (s.pos p)))
    (hold : (s.pos p).state.staffed = false) (hnew : (f (s.pos p)).state.staffed = false) : Quiet s (s.updPos p f) := by
  refine ⟨rfl, fun ⟨hday, hdelay⟩ => ⟨hday.trans (exists_congr fun q => ?_), hdelay⟩, keeps_updPos hk⟩
  rw [← staffed_iff, ← staffed_iff, pos_updPos]
  split
  · next h => subst h; rw [hold, hnew]
  · rfl

theorem nowUnstaffed_frame (s : State) :
    s.nowUnstaffed = { s with night := s.nowUnstaffed.night, nightDelay := s.nowUnstaffed.nightDelay } := by
  unfold State.nowUnstaffed
  split <;> rfl

theorem calm_nowUnstaffed {s : State} {p : Pos} {f : Position → Position} (hk : (s.pos p).Keeps (f (s.pos p)))
    (hold : (s.pos p).state.staffed = true) : Calm s (s.updPos p f).nowUnstaffed := by
  refine ⟨⟨?_, nightOk_nowUnstaffed hold, fun q => ?_⟩, ?_, ?_, ?_, ?_⟩
  · rw [nowUnstaffed_frame]; rfl
  · have hq : (s.updPos p f).nowUnstaffed.pos q = (s.updPos p f).pos q := by rw [nowUnstaffed_frame]; rfl
    rw [hq]
    exact keeps_updPos hk q
  · rw [nowUnstaffed_frame]; rfl
  · rw [nowUnstaffed_frame]; rfl
  · rw [nowUnstaffed_frame]; rfl
  · rw [nowUnstaffed_frame]; rfl

theorem event_failPosition (s : State) (p : Pos) : Event s (s.failPosition p) := by
  have hk : (s.pos p).Keeps { s.pos p with keys := [], state := .faulted } := ⟨fun h => ⟨by simp, h.2⟩, id, id⟩
  have hfail : Event s (if (s.pos p).state.staffed = true then
      (s.updPos p fun q => { q with keys := [], state := .faulted }).nowUnstaffed
      else s.updPos p fun q => { q with keys := [], state := .faulted }) := by
    split
    · next h => exact (calm_nowUnstaffed hk h).event
    · next h => exact .of_quiet (quiet_unstaffed hk (by simpa using h) rfl) ⟨rfl, rfl, rfl, rfl⟩
  have hloops (u : State) := event_foldl (fun t l => t.rescueLoop p l) (fun t l => event_rescueLoop t p l) allLoops u
  have hclear (u : State) : Calm u (u.updPos p fun q => { q.clearAlerts with note := none }) :=
    calm_updPos rfl ((clearAlerts_keeps _).trans (.of_same rfl rfl rfl rfl rfl))
  exact (hfail.trans (hloops _)).trans (hclear _).event

theorem event_carrierLost (s : State) (p : Pos) : Event s (s.carrierLost p) := by
  have hcarrier : Event s (s.updPos p fun q => { q with carrier := false }) :=
    (calm_updPos rfl (.of_same rfl rfl rfl rfl rfl)).event
  unfold State.carrierLost
  split
  · simp only
    split
    · exact hcarrier
    · exact hcarrier.trans (event_failPosition _ _)
  · exact .refl

theorem event_carrierBack (s : State) (p : Pos) : Event s (s.carrierBack p) := by
  unfold State.carrierBack
  split
  · have hk : (s.pos p).Keeps { s.pos p with
        carrier := true, sent := Picture.startup, txq := allItems.map fun it => .item it true
        state := if (s.pos p).state = .faulted then .closed else (s.pos p).state } :=
      ⟨fun h => ⟨h.1, by simp [allItems, TxEntry.isTone]⟩, id, id⟩
    by_cases hf : (s.pos p).state = .faulted
    · exact .of_quiet (quiet_unstaffed hk (by rw [hf]; rfl) (by rw [if_pos hf]; rfl)) ⟨rfl, rfl, rfl, rfl⟩
    · exact (calm_updPos (if_neg hf) hk).event
  · exact .refl

theorem event_sampleCarrier (s : State) (p : Pos) (level : Bool) : Event s (s.sampleCarrier p level) := by
  unfold State.sampleCarrier
  split
  · refine Relation.ReflTransGen.trans ?_ (event_finishOffers _)
    split
    · exact event_carrierBack s p
    · exact event_carrierLost s p
  · exact .refl

/-! ### Responses -/

theorem event_updRescue {s : State} {i : Slot} {r : Record} {m : Rescue} (h : s.slot i = .live r) (hl : r.loc = .rescue m)
    (m' : Rescue) : Event s (s.updRescue i m') :=
  event_placed (fun _ => rfl) (fun _ => by simp) (notQueued_of_live h (by simp [hl]))

theorem event_rescueAnswer {s : State} {i : Slot} {r : Record} {m : Rescue} (h : s.slot i = .live r) (hl : r.loc = .rescue m)
    (e : Entry) (a : Answer) : Event s (s.rescueAnswer i m r e a) := by
  have hn := notQueued_of_live h (by simp [hl])
  have hqueue : Event s (s.rescueToQueue i) := event_recallFrom _ _ _ _
  have hhold (m' : Rescue) : Event s (s.rescueHold i m') := (event_updRescue h hl _).trans (event_issue _ _ _ _)
  have hgone : Event s (s.retire i false) := event_retire _ _ _
  unfold State.rescueAnswer
  split
  · exact hhold _
  · exact hqueue
  · split
    · exact event_placeInOrbit hn _ _
    · exact hqueue
  · have hfree : Event (s.freeOrbits i) ((s.freeOrbits i).rescueRelease i m) :=
      (event_updRescue (s := s.freeOrbits i) h hl _).trans (event_issue _ _ _ _)
    exact (calm_freeOrbits s i).event.trans hfree
  · exact hgone
  · split
    · exact hgone
    · split
      · exact hhold _
      · exact hqueue
  · exact hqueue
  · exact hhold _
  · split
    · exact (event_issue _ _ _ _).trans (event_setStep _ _ _)
    · exact hqueue
  · exact hqueue
  · split
    · exact hgone
    · exact event_extendTo hn _ _
  · exact event_issue _ _ _ _
  · exact event_campAt hn _
  · exact hqueue
  · exact hqueue
  · exact .refl
  · exact .refl

theorem event_returnConnect (s : State) (p : Pos) (l : LoopNo) (i : Slot) : Event s (s.returnConnect p l i) :=
  (event_issue _ _ _ _).trans (event_setStep _ _ _)

theorem event_extendToTalk (s : State) (p : Pos) (l : LoopNo) (i : Slot) : Event s (s.extendToTalk p l i) := by
  have hrec : Event s (s.updRec i fun r => { r with step := 0, dest := none }) := event_updRec (fun _ => rfl) fun _ _ => Iff.rfl
  exact hrec.trans (calm_setLoop _ _ _ _).event

theorem event_lockLoop (s : State) (p : Pos) (l : LoopNo) (i : Slot) : Event s (s.lockLoop p l i) := by
  have hrec : Event s (s.updRec i fun r => { r with step := 0, dest := none }.disarm) :=
    event_updRec (fun _ => rfl) fun _ _ => Iff.rfl
  exact hrec.trans (((calm_setLoop _ _ _ _).trans (calm_raiseLoop _ p rfl l)).trans (calm_noteFor _ _ _ _ _)).event

/-- A call leaves its loop, with a note for it. -/
theorem calm_noted_leaveHolder {s : State} {i : Slot} (h : ∀ r, s.slot i = .live r → r.loc ≠ .queued) (p : Pos) (l : LoopNo)
    (content : List Byte) : Calm s ((s.noteFor p l (some i) content).leaveHolder i) :=
  (calm_noteFor s p l _ _).trans (calm_leaveHolder h)

theorem event_loopAnswer {s : State} {i : Slot} {r : Record} {p : Pos} {l : LoopNo} (h : s.slot i = .live r)
    (hl : r.loc = .loop p l) (e : Entry) (a : Answer) : Event s (s.loopAnswer p l i r e a) := by
  have hn := notQueued_of_live h (by simp [hl])
  have hleft (content : List Byte) (r') (h' : ((s.noteFor p l (some i) content).leaveHolder i).slot i = .live r') :
      r'.loc ≠ .queued := hn r' (by simpa [State.noteFor] using h')
  have hfail : Event s (s.orderFailed p l) := (calm_orderFailed s p l).event
  have hretrieval : Event s (s.retrievalAnswer p l i a) := by
    cases a with
    | done b =>
      have hdrop (u : State) : Calm u (u.updPos p fun q => q.dropKindAt l .holdRecall) :=
        calm_updPos rfl (dropKindAt_keeps _ _ _)
      exact ((calm_setLoop s p l _).event.trans (event_disarm _ i)).trans (hdrop _).event
    | refused b => exact hfail
  have hrelease : Event s (s.releaseAnswer p l i a) := by
    cases a with
    | done b => exact event_retire _ _ _
    | refused b => exact hfail
  unfold State.loopAnswer
  split
  · exact hretrieval
  · exact hretrieval
  · unfold State.holdAnswer
    split
    · exact (calm_noted_leaveHolder hn _ _ _).event.trans (event_placeInOrbit (hleft _) _ _)
    · exact ((calm_setOrbit _ _ _).trans (calm_orderFailed _ _ _)).event
    · exact (calm_setLoop _ _ _ _).event.trans (event_armNow _ _ _ _)
    · exact hfail
  · exact hrelease
  · exact hrelease
  · exact hrelease
  · cases a with
    | done b => exact (event_setStep _ _ _).trans (event_issue _ _ _ _)
    | refused b => exact (event_extendToTalk _ _ _ _).trans (calm_orderFailed _ _ _).event
  · cases a with
    | done b =>
      unfold State.ringAnswer
      simp only
      split
      · exact event_setStep _ _ _
      · exact (event_setStep _ _ _).trans (calm_raiseLoop _ _ rfl _).event
      · exact (calm_raiseLoop _ _ rfl _).event.trans (event_returnConnect _ _ _ _)
    | refused b => exact hfail.trans (event_returnConnect _ _ _ _)
  · have hstep (n : Fin 7) : Event s ((s.setStep i n).orderFailed p l) :=
      (event_setStep _ _ _).trans (calm_orderFailed _ _ _).event
    unfold State.transferAnswer
    split
    · exact (calm_noteFor _ _ _ _ _).event.trans (event_retire _ _ _)
    · exact hstep 5
    · exact (calm_noted_leaveHolder hn _ _ _).event.trans (event_extendTo (hleft _) _ _)
    · exact hstep 3
  · cases a with
    | done b => exact (calm_noted_leaveHolder hn _ _ _).event.trans (event_campAt (hleft _) _)
    | refused b => exact (event_setStep _ _ _).trans (calm_orderFailed _ _ _).event
  · cases a with
    | done b => exact event_returnConnect _ _ _ _
    | refused b => exact hfail.trans (event_returnConnect _ _ _ _)
  · cases a with
    | done b => exact event_extendToTalk _ _ _ _
    | refused b => exact event_lockLoop _ _ _ _
  · exact event_retire _ _ _
  · exact .refl

theorem event_rearmSpent (s : State) (i : Slot) (r : Record) (pu : Purpose) (iv : Interval) :
    Event s (s.rearmSpent i r pu iv) := by
  unfold State.rearmSpent
  split
  · exact event_armFrom _ _ _ _ _
  · exact event_armNow _ _ _ _

theorem event_ownerActs {s : State} {i : Slot} {r : Record} (h : s.slot i = .live r) (e : Entry) (a : Answer) :
    Event s (s.ownerActs i r e a) := by
  have hclaim : Event s (match r.claim with | some c => if c.granted then s.claimAnswer i c a else s | none => s) := by
    split
    · split
      · cases a with
        | done b => exact event_claimDone _ _ _
        | refused b => exact event_claimRefused _ _ _
      · exact .refl
    · exact .refl
  unfold State.ownerActs
  split
  · exact hclaim
  · exact hclaim
  · cases a with
    | done b => exact event_retire _ _ _
    | refused b =>
      unfold State.divertAnswer
      simp only
      split
      · exact event_updRec (fun _ => rfl) fun _ _ => Iff.rfl
      · exact .refl
  · next hl => exact event_loopAnswer h hl e a
  · next ext _ hl _ =>
    have hn := notQueued_of_live h (by simp [hl])
    cases a with
    | done b =>
      unfold State.campRingAnswer
      simp only
      split
      · exact (calm_leaveHolder hn).event.trans (event_extendTo (fun r' h' => hn r' (by simpa using h')) _ _)
      · exact .refl
      · exact event_recallFrom _ _ _ _
    | refused b => exact event_recallFrom _ _ _ _
  · cases a with
    | done b => exact event_recallFrom _ _ _ _
    | refused b => exact event_rearmSpent _ _ _ _ _
  · cases a with
    | done b => exact event_recallFrom _ _ _ _
    | refused b =>
      cases b with
      | true => exact event_retire _ _ _
      | false => exact event_rearmSpent _ _ _ _ _
  · next hl => exact event_rescueAnswer h hl e a
  · exact .refl

end Sys2Proof.Machine
end

section
/-! PROOFS. Keys, the end of an event, and every command are events; and with that the invariants that each kind of work keeps. -/

namespace Sys2Proof.Machine

/-! ### Keys -/

theorem calm_updState_staffed {s : State} {p : Pos} {x : PosState} (hold : (s.pos p).state.staffed = true)
    (hnew : x.staffed = true) : Calm s (s.updPos p fun q => { q with state := x }) :=
  ⟨quiet_staffed (.of_same rfl rfl rfl rfl rfl) hold hnew, rfl, rfl, rfl, rfl⟩

theorem calm_keyOpen (s : State) (p : Pos) : Calm s (s.keyOpen p) := by
  unfold State.keyOpen
  split
  · have hpos := keeps_updPos (s := s) (p := p) (f := fun q => { q with state := .opened }) (.of_same rfl rfl rfl rfl rfl)
    refine ⟨⟨rfl, fun _ => ⟨iff_of_true rfl ⟨p, .inl ?_⟩, by simp [State.nowStaffed]⟩, hpos⟩, rfl, rfl, rfl, rfl⟩
    show ((s.updPos p fun q => { q with state := .opened }).pos p).state = .opened
    rw [pos_updPos_self]
  · exact calm_errorTone s p

theorem calm_keyClose (s : State) (p : Pos) : Calm s (s.keyClose p) := by
  unfold State.keyClose
  split
  · next h =>
    rw [Bool.and_eq_true] at h
    exact calm_nowUnstaffed ((clearAlerts_keeps _).trans (.of_same rfl rfl rfl rfl rfl)) h.1
  · exact calm_errorTone s p

theorem calm_keyWithdraw (s : State) (p : Pos) : Calm s (s.keyWithdraw p) := by
  unfold State.keyWithdraw
  split
  · next h => exact calm_updState_staffed (by rw [h]; rfl) rfl
  · exact calm_errorTone s p

theorem calm_keyResume (s : State) (p : Pos) : Calm s (s.keyResume p) := by
  unfold State.keyResume
  split
  · next h => exact calm_updState_staffed (by rw [h]; rfl) rfl
  · exact calm_errorTone s p

theorem calm_keyReview (s : State) (p : Pos) : Calm s (s.keyReview p) := by
  unfold State.keyReview
  split
  · split
    · next a rest _ =>
      exact calm_updPos (f := fun q => { q.dropHead with note := some (s.reviewNote p a) }) rfl
        ((dropHead_keeps _).trans (.of_same rfl rfl rfl rfl rfl))
    · exact calm_errorTone s p
  · exact calm_errorTone s p

theorem event_keyAnswerNext (s : State) (p : Pos) : Event s (s.keyAnswerNext p) := by
  unfold State.keyAnswerNext
  split
  · split
    · exact event_claimRequest _ _ _ _ _
    · exact (calm_errorTone s p).event
  · exact (calm_errorTone s p).event

theorem event_keyPickup (s : State) (p : Pos) (a : KeyArgs) : Event s (s.keyPickup p a) := by
  unfold State.keyPickup
  split
  · split
    · exact event_claimRequest _ _ _ _ _
    · exact (calm_errorTone s p).event
  · exact (calm_errorTone s p).event

theorem event_keyLoop (s : State) (p : Pos) (l : LoopNo) : Event s (s.keyLoop p l) := by
  unfold State.keyLoop
  split
  · split
    · exact event_claimRequest _ _ _ _ _
    · exact event_issue _ _ _ _
    · exact event_issue _ _ _ _
    · exact (calm_errorTone s p).event
  · exact (calm_errorTone s p).event

theorem event_issue_setStep (s : State) (i : Slot) (o : Order) (m : Mark) (n : Fin 7) : Event s ((s.issue i o m).setStep i n) :=
  (event_issue _ _ _ _).trans (event_setStep _ _ _)

theorem event_keyRelease (s : State) (p : Pos) (l : LoopNo) : Event s (s.keyRelease p l) := by
  unfold State.keyRelease
  split
  · exact event_issue _ _ _ _
  · exact event_issue _ _ _ _
  · exact event_issue _ _ _ _
  · split
    · exact event_issue_setStep _ _ _ _ _
    · split
      · exact event_issue_setStep _ _ _ _ _
      · exact (calm_errorTone s p).event
  · exact (calm_errorTone s p).event

theorem event_keyPark (s : State) (p : Pos) (l : LoopNo) (a : KeyArgs) : Event s (s.keyPark p l a) := by
  unfold State.keyPark
  split
  · exact (calm_setOrbit _ _ _).event.trans (event_issue _ _ _ _)
  · exact (calm_noteFor _ _ _ _ _).event.trans (event_leave_placeInOrbit _ _ _ _)
  · exact (calm_errorTone s p).event

theorem event_keyExtend (s : State) (p : Pos) (l : LoopNo) (a : KeyArgs) : Event s (s.keyExtend p l a) := by
  unfold State.keyExtend
  split
  · next i ext _ _ =>
    have hrec (u : State) : Event u (u.updRec i fun r => { r with step := 1, dest := some ext }) :=
      event_updRec (fun _ => rfl) fun _ _ => Iff.rfl
    exact ((calm_setLoop _ _ _ _).event.trans (hrec _)).trans (event_issue _ _ _ _)
  · exact (calm_errorTone s p).event

theorem event_keyCancel (s : State) (p : Pos) (l : LoopNo) : Event s (s.keyCancel p l) := by
  unfold State.keyCancel
  split
  · split
    · exact event_issue_setStep _ _ _ _ _
    · split
      · exact event_returnConnect _ _ _ _
      · exact (calm_errorTone s p).event
  · exact (calm_errorTone s p).event

theorem event_keyCamp (s : State) (p : Pos) (l : LoopNo) : Event s (s.keyCamp p l) := by
  unfold State.keyCamp
  split
  · split
    · split
      · exact event_issue_setStep _ _ _ _ _
      · exact (calm_errorTone s p).event
    · exact (calm_errorTone s p).event
  · exact (calm_errorTone s p).event

theorem event_keyHold (s : State) (p : Pos) (l : LoopNo) : Event s (s.keyHold p l) := by
  unfold State.keyHold
  split
  · exact event_issue _ _ _ _
  · exact (calm_errorTone s p).event

theorem event_keyClear (s : State) (p : Pos) (l : LoopNo) : Event s (s.keyClear p l) := by
  unfold State.keyClear
  split
  · exact event_issue _ _ _ _
  · exact (calm_errorTone s p).event

theorem event_loopKey (s : State) (p : Pos) (k : KeyKind) (a : KeyArgs) (l : LoopNo) : Event s (s.loopKey p k a l) := by
  cases k with
  | loop => exact event_keyLoop s p l
  | release => exact event_keyRelease s p l
  | hold => exact event_keyHold s p l
  | park => exact event_keyPark s p l a
  | extend => exact event_keyExtend s p l a
  | cancel => exact event_keyCancel s p l
  | camp => exact event_keyCamp s p l
  | clear => exact event_keyClear s p l
  | opening | closing | withdraw | resume | review | answerNext | pickup => exact (calm_errorTone s p).event

theorem event_evalKey (s : State) (p : Pos) (k : KeyMsg) : Event s (s.evalKey p k) := by
  have herror : Event s (s.errorTone p) := (calm_errorTone s p).event
  unfold State.evalKey
  split
  · split
    · exact (calm_keyOpen s p).event
    · exact (calm_keyClose s p).event
    · exact (calm_keyWithdraw s p).event
    · exact (calm_keyResume s p).event
    · exact (calm_keyReview s p).event
    · exact event_keyAnswerNext s p
    · exact event_keyPickup s p _
    · split
      · split
        · exact event_loopKey _ _ _ _ _
        · exact herror
      · exact herror
  · exact herror

theorem calm_keysTaken {s : State} {p : Pos} {k : KeyMsg} {rest : List KeyMsg} (h : (s.pos p).keys = k :: rest) :
    Calm s (s.updPos p fun q => { q with keys := rest }) := by
  refine calm_updPos rfl ⟨fun ⟨hk, ht⟩ => ⟨?_, ht⟩, id, id⟩
  rw [h, List.length_cons] at hk
  show rest.length ≤ 2
  omega

theorem event_drain (p : Pos) (n : Nat) (s : State) : Event s (s.drain p n) := by
  induction n generalizing s with
  | zero => exact .refl
  | succ n ih =>
    unfold State.drain
    split
    · exact .refl
    · next k rest h =>
      split
      · exact .refl
      · exact ((calm_keysTaken h).event.trans (event_evalKey _ _ _)).trans (ih _)

theorem event_drainKeys (s : State) (p : Pos) : Event s (s.drainKeys p) := event_drain p _ s

theorem event_drainAll (s : State) : Event s s.drainAll := event_foldl _ event_drainKeys _ s

theorem event_finishAll (s : State) : Event s s.finishAll := (event_drainAll s).trans (event_finishOffers _)

theorem event_press (s : State) (p : Pos) (k : KeyMsg) : Event s (s.press p k) := by
  have hpress : Event s (if (s.pos p).keys.length < Config.keyPlaces then
      ((s.updPos p fun q => { q with keys := q.keys ++ [k] }).drainKeys p).finishOffers else s.errorTone p) := by
    split
    · next h =>
      have hk : (s.pos p).Keeps { s.pos p with keys := (s.pos p).keys ++ [k] } := by
        refine ⟨fun ⟨_, ht⟩ => ⟨?_, ht⟩, id, id⟩
        simp only [Config.keyPlaces] at h
        simp only [List.length_append, List.length_singleton]
        omega
      have hbuf : Calm s (s.updPos p fun q => { q with keys := q.keys ++ [k] }) := calm_updPos rfl hk
      exact (hbuf.event.trans (event_drainKeys _ p)).trans (event_finishOffers _)
    · exact (calm_errorTone s p).event
  unfold State.press
  split
  · exact .refl
  · exact .refl
  · exact hpress

/-! ### Answers -/

theorem event_answered (s : State) (e : Entry) (a : Option Answer) : Event s (s.answered e a) := by
  unfold State.answered
  refine Relation.ReflTransGen.trans (Relation.ReflTransGen.trans (Relation.ReflTransGen.trans ?_ (event_reexamine _ _))
    (event_settleHeld _ _)) (event_finishAll _)
  have hdrop (h : ∀ ref, s.slot e.slot ≠ .retiring ref) : Event s (s.dropEntry e.slot) := .of_work (.respond _ h)
  cases hs : s.slot e.slot with
  | free => simpa [hs] using hdrop (by simp [hs])
  | retiring ref => simpa [hs] using Event.of_work (.respondRetiring _ ref hs)
  | live r =>
    have hlive : (s.dropEntry e.slot).slot e.slot = .live r := hs
    have hdrop := hdrop (by simp [hs])
    cases a with
    | none => simpa [hs] using hdrop.trans (event_retire _ _ _)
    | some a => simpa [hs] using hdrop.trans (event_ownerActs hlive e a)

theorem event_retried (s : State) (e : Entry) : Event s (s.retried e) := by
  unfold State.retried
  split
  · next r hr =>
    split
    · next htries =>
      have hrest := Event.of_work (.rest e.slot r (fun e' => { e' with
        state := .resting (s.tick + s.timing.retryDelay), tries := ⟨e.tries.val + 1, by omega⟩ }) hr
        fun _ => ⟨rfl, rfl, rfl⟩)
      exact hrest.trans (event_finishOrders _)
    · exact event_answered _ _ _
  · exact event_answered _ _ _

theorem event_protocolError (s : State) (typ : Byte) (ref : CallRef) : Event s (s.protocolError typ ref) :=
  (calm_transmit s _).event

theorem event_decoded {α : Type} (s : State) (typ : Byte) (m : Option α) {act : α → State} (h : ∀ a, Event s (act a)) :
    Event s (s.decoded typ m act) := by
  unfold State.decoded
  split
  · exact h _
  · exact event_protocolError _ _ _

theorem event_whileUp {s : State} (typ : Byte) (ref : CallRef) {act : State} (h : s.link = .up → Event s act) :
    Event s (s.whileUp typ ref act) := by
  unfold State.whileUp
  split
  · next hup => exact h hup
  · exact event_protocolError _ _ _

theorem event_response (s : State) (m : Decode.Reply) : Event s (s.response m) := by
  unfold State.response
  split
  · split
    · split
      · exact event_answered _ _ _
      · exact event_answered _ _ _
      · exact event_answered _ _ _
      · exact event_retried _ _
    · exact event_protocolError _ _ _
  · exact event_protocolError _ _ _

theorem event_responseMessage (s : State) (body : List Byte) : Event s (s.responseMessage body) :=
  event_decoded _ _ _ fun m => event_whileUp _ _ fun _ => event_response s m

/-! ### Call events and admission -/

theorem event_destAnswered (s : State) (i : Slot) : Event s (s.destAnswered i) := by
  unfold State.destAnswered
  split
  · split
    · split
      · exact (event_setStep _ _ _).trans ((calm_raiseLoop _ _ rfl _).trans (calm_refresh _)).event
      · exact .refl
    · exact (event_retire _ _ _).trans (event_finishAll _)
    · exact .refl
  · exact .refl

theorem event_destCleared (s : State) (i : Slot) : Event s (s.destCleared i) := by
  unfold State.destCleared
  split
  · split
    · split
      · exact (event_returnConnect _ _ _ _).trans (event_finishOrders _)
      · exact .refl
    · exact .refl
  · exact .refl

theorem event_destState (s : State) (body : List Byte) : Event s (s.destState body) := by
  refine event_decoded _ _ _ fun m => event_whileUp _ _ fun _ => ?_
  split
  · cases s.byRef m.1 with
    | none => exact .refl
    | some i => exact event_destAnswered s i
  · split
    · cases s.byRef m.1 with
      | none => exact .refl
      | some i => exact event_destCleared s i
    · exact event_protocolError _ _ _

theorem event_clearedCall (s : State) (ref : CallRef) : Event s (s.clearedCall ref) := by
  unfold State.clearedCall
  split
  · split
    · exact (event_retire _ _ _).trans (event_finishAll _)
    · exact .refl
  · exact .refl

theorem event_extensionFree (s : State) (ext : Digits) : Event s (s.extensionFree ext) := by
  unfold State.extensionFree
  split
  · exact (event_issue _ _ _ _).trans (event_finishOrders _)
  · exact .refl

/-- The record of an admitted call with its AGING timer (R13, R38). -/
theorem admitted_eq (s : State) (i : Slot) {r : Record} (h : r.aging = 0) :
    s.admitted i r =
      (((s.setSlot i (.live (r.armAt .aging (s.tick + (s.tenant r.tenant).agingInterval)))).joinTail i).transmit
        (.callTaken r.ref i)).nightJoin i := by
  unfold State.admitted
  simp only
  rw [armAging_live (by rw [record?_eq_some]; exact slot_setSlot_self _ _ _), setSlot_setSlot, h]
  rfl

theorem lowestFree_free {s : State} {i : Slot} (h : s.lowestFree = some i) : s.slot i = .free := by
  simpa using List.find?_some h

theorem byRef_eq_none {s : State} {ref : CallRef} (h : s.byRef ref = none) (j : Slot) : (s.slot j).holds ref = false := by
  simpa using List.find?_eq_none.1 h j (List.mem_finRange j)

theorem event_admitted {s : State} {i : Slot} {r : Record} (up : s.link = .up) (free : s.slot i = .free) (loc : r.loc = .queued)
    (nonzero : r.ref ≠ 0) (fresh : s.byRef r.ref = none) (aging : r.aging = 0) : Event s (s.admitted i r) := by
  rw [admitted_eq s i aging]
  generalize hr' : r.armAt .aging (s.tick + (s.tenant r.tenant).agingInterval) = r'
  have href : r'.ref = r.ref := by subst hr'; rfl
  have hloc : r'.loc = .queued := by subst hr'; exact loc
  have hjoin := quiet_joinTail (s.setSlot i (.live r')) i
  refine Relation.ReflTransGen.trans (Event.of_work (.join i r' ((quiet_setSlot s i _).trans hjoin) up free hloc
    (href ▸ nonzero) (fun j => href ▸ byRef_eq_none fresh j) ?_ ?_ ?_ ?_)) ((calm_transmit _ _).event.trans (event_nightJoin _ _))
  · rw [joinTail_frame]
  · rw [joinTail_queue_live (slot_setSlot_self _ _ _)]; rfl
  · rw [joinTail_frame]; rfl
  · rw [joinTail_frame]; rfl

theorem arrivalDigits_nonzero {a : Decode.Arrival} {ds : Digits} (h : arrivalDigits a = some ds) : a.ref ≠ 0 := by
  unfold arrivalDigits at h
  split at h
  · next hc => exact hc.1
  · cases h

theorem event_arrival {s : State} (up : s.link = .up) (a : Decode.Arrival) : Event s (s.arrival a) := by
  unfold State.arrival
  split
  · exact (calm_transmit _ _).event
  · next digits hd =>
    split
    · exact (calm_transmit _ _).event
    · split
      · exact ((calm_transmit _ _).trans (calm_transmit _ _)).event
      · next hfresh =>
        split
        · exact (calm_transmit _ _).event
        · next i hi =>
          exact (event_admitted up (lowestFree_free hi) rfl (arrivalDigits_nonzero hd) (by simpa [newRecord] using hfresh)
            rfl).trans (event_finishOffers _)

/-! ### The emptied Call Table -/

theorem nightOk_clearCalls (s : State) : s.nightOk → s.clearCalls.nightOk :=
  nightOk_of_same rfl rfl fun p => by rw [clearCalls_pos]; rfl

theorem keeps_clearCalls (s : State) (p : Pos) : (s.pos p).Keeps (s.clearCalls.pos p) := by
  rw [clearCalls_pos]; exact emptied_keeps _

theorem event_restarted (s : State) : Event s s.restarted :=
  (Event.of_work (.emptied (nightOk_clearCalls s) (keeps_clearCalls s) (clearCalls_slot s) rfl rfl rfl)).trans
    (event_finishAll _)

theorem event_linkFailure (s : State) : Event s s.linkFailure := by
  have hempty : Event s { s.clearCalls with link := .failed } :=
    .of_work (.emptied (nightOk_clearCalls s) (keeps_clearCalls s) (clearCalls_slot s) rfl rfl rfl)
  have hraise (u : State) : Event u (allPos.foldl (fun t p => t.raiseKind p .exchangeDown) u) :=
    (Calm.foldl _ (fun t p => calm_raiseKind t p rfl) _ u).event
  exact ((hempty.trans (event_drainAll _)).trans (hraise _)).trans (calm_refresh _).event

/-! ### Commands -/

theorem pos_atReset (poseq : BitVec 2) (xrate : Bool) (pcar : BitVec 4) (p : Pos) :
    (State.atReset poseq xrate pcar).pos p = Position.atReset poseq pcar p := by
  fin_cases p <;> rfl

theorem slot_atReset (poseq : BitVec 2) (xrate : Bool) (pcar : BitVec 4) (i : Slot) :
    (State.atReset poseq xrate pcar).slot i = .free := by
  simp [State.atReset, State.slot]

theorem atReset_unstaffed (poseq : BitVec 2) (pcar : BitVec 4) (p : Pos) :
    ¬ ((Position.atReset poseq pcar p).state = .opened ∨ (Position.atReset poseq pcar p).state = .withdrawn) := by
  unfold Position.atReset
  simp only
  split
  · split <;> simp
  · simp

theorem nightOk_atReset (poseq : BitVec 2) (xrate : Bool) (pcar : BitVec 4) : (State.atReset poseq xrate pcar).nightOk := by
  refine ⟨iff_of_false (by simp [State.atReset]) ?_, by simp [State.atReset]⟩
  rintro ⟨p, hp⟩
  rw [pos_atReset] at hp
  exact atReset_unstaffed poseq pcar p hp

theorem atReset_keeps (q : Position) (poseq : BitVec 2) (pcar : BitVec 4) (p : Pos) : q.Keeps (Position.atReset poseq pcar p) where
  buffers := fun _ => ⟨by simp [Position.atReset], by
    unfold Position.atReset
    simp only
    split <;> simp [TxEntry.isTone]⟩
  alerts := fun _ => ⟨fun _ h => by simp [Position.atReset] at h, by simp [Position.atReset]⟩
  tones := fun _ h => by simp [Position.atReset] at h

theorem event_reset (s : State) (poseq : BitVec 2) (xrate : Bool) (pcar : BitVec 4) :
    Event s { State.atReset poseq xrate pcar with pending := s.pending } := by
  refine .of_work (.emptied (fun _ => nightOk_atReset poseq xrate pcar) (fun p => ?_) (slot_atReset poseq xrate pcar) rfl rfl rfl)
  have hp : ({ State.atReset poseq xrate pcar with pending := s.pending } : State).pos p = Position.atReset poseq pcar p :=
    pos_atReset poseq xrate pcar p
  rw [hp]
  exact atReset_keeps _ _ _ _

theorem event_testHead (s : State) : Event s s.testHead := by
  unfold State.testHead
  split
  · next e he =>
    split
    · next d f hd =>
      split
      · obtain ⟨i, -, hi⟩ := Option.bind_eq_some_iff.1 he
        have hei := (entry?_slot hi).1
        subst hei
        exact .of_work (.entry e.slot e (fun e' => { e' with state := .sent d true }) hi (fun _ => ⟨rfl, rfl⟩)
          (by simp [Entry.isSent, hd]))
      · exact .refl
    · exact .refl
  · exact .refl

theorem event_advance (s : State) : Event s s.advance := by
  have hcount : Calm s { s with
      tick := s.tick + 1, xrx := s.xrx.advance, positions := s.positions.map fun q => { q with rx := q.rx.advance } } := by
    have hpos (p : Pos) : ({ s with
        tick := s.tick + 1, xrx := s.xrx.advance
        positions := s.positions.map fun q => { q with rx := q.rx.advance } } : State).pos p =
          { s.pos p with rx := (s.pos p).rx.advance } := by simp [State.pos]
    refine ⟨⟨rfl, nightOk_of_same rfl rfl fun p => by rw [hpos], fun p => ?_⟩, rfl, rfl, rfl, rfl⟩
    rw [hpos]
    exact .of_same rfl rfl rfl rfl rfl
  exact hcount.event.trans (event_testHead _)

theorem event_tick (s : State) (pcar : BitVec 4) :
    Event s (allPos.foldl (fun t p => t.sampleCarrier p (pcarLevel pcar p)) s.advance) :=
  (event_advance s).trans (event_foldl _ (fun t p => event_sampleCarrier t p _) _ _)

theorem event_nightEntry {s : State} {d : Tick} (hd : s.nightDelay = some d) : Event s s.nightEntry := by
  have hnight : Event s { s with night := .night, nightDelay := none } := by
    refine .of_quiet ⟨rfl, fun ⟨hday, hdelay⟩ => ⟨iff_of_false (by simp) fun hex => ?_, by simp⟩, fun _ => .refl _⟩
      ⟨rfl, rfl, rfl, rfl⟩
    have h1 : s.night = .day := hday.2 hex
    rw [hdelay.1 (by rw [hd]; rfl)] at h1
    cases h1
  refine hnight.trans (event_foldl _ (fun t i => ?_) _ _)
  split
  · exact event_nightDivert t i
  · exact .refl

theorem event_retryDeadline (s : State) (i : Slot) : Event s
    (match s.entry? i with
      | some e =>
        match e.state with
        | .resting d => if expired s.tick d then (s.updEntry i fun e' => { e' with state := .waiting }).finishOrders else s
        | _ => s
      | none => s) := by
  split
  · next e he =>
    split
    · next d hd =>
      split
      · have hwait := Event.of_work (.entry i e (fun e' => { e' with state := .waiting }) he (fun _ => ⟨rfl, rfl⟩)
          (by simp [Entry.isSent, hd]))
        exact hwait.trans (event_finishOrders _)
      · exact .refl
    · exact .refl
  · exact .refl

theorem event_discardFrame (s : State) (l : Link) : Event s (s.discardFrame l) := by
  cases l with
  | exchange => exact .of_quiet (quiet_of_same rfl rfl rfl rfl) ⟨rfl, rfl, rfl, rfl⟩
  | position p =>
    unfold State.discardFrame
    simp only
    split
    · exact (calm_updPos rfl (.of_same rfl rfl rfl rfl rfl)).event
    · exact .refl

theorem event_sendFrame (s : State) (p : Pos) : Event s (s.sendFrame p) := by
  unfold State.sendFrame
  split
  · split
    · exact .refl
    · next t rest h =>
      refine (calm_updPos rfl ⟨fun ⟨hk, ht⟩ => ⟨hk, ?_⟩, id, id⟩).event
      rw [h] at ht
      exact (List.Sublist.length_le ((List.sublist_cons_self _ _).filter _)).trans ht
    · next k _ rest h =>
      exact (calm_updPos (f := fun q => { q with
        txq := rest, pout := q.pout ++ [.lamp k (s.wantedLamp p k)]
        sent := { q.sent with lamps := q.sent.lamps.set k (s.wantedLamp p k) } }) rfl
        (.of_same rfl (by rw [h]; rfl) rfl rfl rfl)).event
    · next j _ rest h =>
      exact (calm_updPos (f := fun q => { q with
        txq := rest, pout := q.pout ++ [.display j (s.wantedLine p j)]
        sent := { q.sent with lines := q.sent.lines.set j (s.wantedLine p j) } }) rfl
        (.of_same rfl (by rw [h]; rfl) rfl rfl rfl)).event
  · exact .refl

theorem event_of_same {s t : State} (hp : t.positions = s.positions) (hl : t.link = s.link) (hn : t.night = s.night)
    (hd : t.nightDelay = s.nightDelay) (ht : SameTable s t) : Event s t := .of_quiet (quiet_of_same hp hl hn hd) ht

/-- Every command is an event. -/
theorem event_exec {c : Instr} {s t : State} (h : exec c s = .next t) : Event s t := by
  have press {p : Pos} {k : KeyMsg} (h : Host.Outcome.next (s.press p k) = Host.Outcome.next (φ := Fault) (ρ := Refusal) t) :
      Event s t := by cases h; exact event_press s p k
  cases c with
  | reset poseq xrate pcar => cases h; exact event_reset s poseq xrate pcar
  | tick pcar => cases h; exact event_tick s pcar
  | agingExpiry i => cases h; exact event_expiry _ _ _ event_finishOrders
  | offerExpiry i => cases h; exact event_expiry _ _ _ event_finishOffers
  | holdRecallExpiry i => cases h; exact event_expiry _ _ _ fun u => (calm_refresh u).event
  | escalateExpiry i => cases h; exact event_expiry _ _ _ event_finishAll
  | noAnswerExpiry i => cases h; exact event_expiry _ _ _ event_finishOrders
  | campTimeoutExpiry i => cases h; exact event_expiry _ _ _ event_finishOrders
  | parkRecallExpiry i => cases h; exact event_expiry _ _ _ event_finishOffers
  | orderTimeout =>
    cases h
    split
    · exact event_linkFailure s
    · exact .refl
  | retryDeadlineExpiry i => cases h; exact event_retryDeadline s i
  | nightDelayExpiry =>
    cases h
    split
    · next d hd =>
      split
      · exact (event_nightEntry hd).trans (event_finishOrders _)
      · exact .refl
    · exact .refl
  | toneRepeatExpiry p =>
    cases h
    split
    · split
      · refine (calm_updPos ?_ (toneDue_keeps _ _)).event
        unfold Position.toneDue
        split
        · rw [sound_eq]
        · rfl
      · exact .refl
    · exact .refl
  | frameByteTimeout l => cases h; exact event_discardFrame s l
  | frameError l => cases h; exact event_discardFrame s l
  | carrierLoss p => cases h; exact event_sampleCarrier s p _
  | carrierReturn p => cases h; exact event_sampleCarrier s p _
  | linkUp body =>
    cases h
    refine event_decoded _ _ _ fun _ => ?_
    split
    · exact event_restarted s
    · exact .of_work .linkUp
  | restart body => cases h; exact event_decoded _ _ _ fun _ => event_whileUp _ _ fun _ => event_restarted s
  | arrive body => cases h; exact event_decoded _ _ _ fun a => event_whileUp _ _ fun up => event_arrival up a
  | cleared body => cases h; exact event_decoded _ _ _ fun ref => event_whileUp _ _ fun _ => event_clearedCall s ref
  | destStateAnswered body => cases h; exact event_destState s body
  | destStateDestCleared body => cases h; exact event_destState s body
  | extFree body => cases h; exact event_decoded _ _ _ fun ext => event_whileUp _ _ fun _ => event_extensionFree s ext
  | responseDone body => cases h; exact event_responseMessage s body
  | responseRefused body => cases h; exact event_responseMessage s body
  | responseRetry body => cases h; exact event_responseMessage s body
  | pause body =>
    cases h
    exact event_decoded _ _ _ fun _ => event_whileUp _ _ fun _ => event_of_same rfl rfl rfl rfl ⟨rfl, rfl, rfl, rfl⟩
  | resume body =>
    cases h
    have hp : Event s { s with paused := false } := event_of_same rfl rfl rfl rfl ⟨rfl, rfl, rfl, rfl⟩
    exact event_decoded _ _ _ fun _ => event_whileUp _ _ fun _ => hp.trans (event_finishOrders _)
  | tenantSet body =>
    cases h
    refine event_decoded _ _ _ fun w => ?_
    have ht : Event s { s with tenants := s.tenants.set w.tenant (tenantOfWrite w) } :=
      event_of_same rfl rfl rfl rfl ⟨rfl, rfl, rfl, rfl⟩
    exact ht.trans (calm_refresh _).event
  | timingSet body =>
    cases h
    exact event_decoded _ _ _ fun _ => event_of_same rfl rfl rfl rfl ⟨rfl, rfl, rfl, rfl⟩
  | positionSet body =>
    cases h
    refine event_decoded _ _ _ fun w => ?_
    split
    · have hm : Calm s (s.updPos w.pos fun q => q.withMasks s.tick w) := by
        refine calm_updPos ?_ (withMasks_keeps _ _ _)
        unfold Position.withMasks Position.afterToneMask
        split
        · split
          · rfl
          · rw [sound_eq]
        · rfl
      exact hm.event.trans (event_finishOffers _)
    · exact .refl
  | statusQuery body => cases h; exact event_decoded _ _ _ fun _ => (calm_transmit _ _).event
  | key p typ body =>
    cases h
    split
    · exact event_press s p _
    · exact .refl
  | openKey p a => exact press h
  | closeKey p a => exact press h
  | withdrawKey p a => exact press h
  | resumeKey p a => exact press h
  | reviewKey p a => exact press h
  | answerNextKey p a => exact press h
  | pickupKey p a => exact press h
  | loopKey p a => exact press h
  | releaseKey p a => exact press h
  | holdKey p a => exact press h
  | parkKey p a => exact press h
  | extendKey p a => exact press h
  | cancelKey p a => exact press h
  | campKey p a => exact press h
  | clearKey p a => exact press h
  | orderSend => cases h; exact event_sendOne s
  | positionFrameSend p => cases h; exact event_sendFrame s p
  | unknownMessageType typ body => cases h; exact event_protocolError _ _ _

/-! ### A step on an empty queue (log 8) -/

theorem event_exchangeTurn {s t : State} (h : s.exchangeTurn = some t) : Event s t := by
  unfold State.exchangeTurn at h
  split at h
  · cases h; exact event_of_same rfl rfl rfl rfl ⟨rfl, rfl, rfl, rfl⟩
  · split at h
    · cases h; exact event_of_same rfl rfl rfl rfl ⟨rfl, rfl, rfl, rfl⟩
    · cases h

theorem event_positionTurn {s t : State} {p : Pos} (h : s.positionTurn p = some t) : Event s t := by
  unfold State.positionTurn at h
  simp only at h
  split at h
  · split at h
    · cases h; exact event_of_same rfl rfl rfl rfl ⟨rfl, rfl, rfl, rfl⟩
    · split at h
      · next b rest _ =>
        cases h
        have hpos : Calm s (s.updPos p fun q => { q with line := rest, rx := (q.rx.feed b).1 }) :=
          calm_updPos rfl (.of_same rfl rfl rfl rfl rfl)
        exact hpos.event.trans (event_of_same rfl rfl rfl rfl ⟨rfl, rfl, rfl, rfl⟩)
      · cases h
  · cases h

theorem event_idle (s : State) : Event s s.idle := by
  unfold State.idle
  split
  · next t h => exact event_exchangeTurn h
  · cases h : allPos.findSome? s.positionTurn with
    | none => exact .refl
    | some t =>
      obtain ⟨p, -, hp⟩ := List.exists_of_findSome?_eq_some h
      exact event_positionTurn hp

/-- Every step is an event. -/
theorem event_step {s t : State} (h : step s = .next t) : Event s t := by
  unfold step at h
  split at h
  · next c rest _ =>
    have hpending : Event s { s with pending := rest } := event_of_same rfl rfl rfl rfl ⟨rfl, rfl, rfl, rfl⟩
    exact hpending.trans (event_exec h)
  · cases h; exact event_idle s

/-- The nine places of an alert list: the six loops and the three position-level kinds (R162). -/
def alertPlaces : Finset (Option LoopNo × Option AlertKind) :=
  (Finset.univ.image fun l : LoopNo => (some l, none)) ∪
    {(none, some .queueThreshold), (none, some .autoWithdrawn), (none, some .exchangeDown)}

theorem place_mem_alertPlaces {a : Alert} (h : a.loop.isNone = a.kind.positionLevel) : a.place ∈ alertPlaces := by
  unfold Alert.place alertPlaces
  cases hl : a.loop with
  | some l => simp
  | none => cases hk : a.kind <;> simp_all [AlertKind.positionLevel]

/-- At most one entry per loop and one per position-level kind: at most 9 entries (R162). -/
theorem alerts_length {q : Position} (h : q.alertsOk) : q.alerts.length ≤ 9 := by
  obtain ⟨hform, hnodup⟩ := h
  have hsub : (q.alerts.map Alert.place).toFinset ⊆ alertPlaces := by
    intro x hx
    obtain ⟨a, ha, rfl⟩ := List.mem_map.1 (List.mem_toFinset.1 hx)
    exact place_mem_alertPlaces (hform a ha)
  have hcard : alertPlaces.card ≤ 9 := by decide
  calc q.alerts.length = (q.alerts.map Alert.place).toFinset.card := by
        rw [List.toFinset_card_of_nodup hnodup, List.length_map]
    _ ≤ alertPlaces.card := Finset.card_le_card hsub
    _ ≤ 9 := hcard

end Sys2Proof.Machine

namespace Sys2Proof
open Sys2Proof.Machine

/-- Settles O4: a step is a sequence of kinds of work, and each keeps the order list, the window, the slots and the references. -/
theorem stepKeepsOrdersOk : Obligations.StepKeepsOrdersOk :=
  ⟨fun _ _ hs h => (event_step h).keeps (fun _ _ w => w.ordersOk) hs,
    fun _ _ hs h => (event_step h).keeps (fun _ _ w => w.refsOk) hs⟩

/-- Settles O6: each kind of work keeps the night state in step with the staffed positions. -/
theorem stepKeepsNightOk : Obligations.StepKeepsNightOk :=
  fun _ _ hs h => (event_step h).keeps (fun _ _ w => w.nightOk) hs

/-- Settles O7: no kind of work but an admission fills a slot, and an admission is made in UP alone. -/
theorem stepKeepsDownOk : Obligations.StepKeepsDownOk :=
  fun _ _ hs h => (event_step h).keeps (fun _ _ w => w.downOk) hs

/-- Settles O8: each kind of work keeps the bounds and the form of the alert lists, which has nine places. -/
theorem stepKeepsTheBounds : Obligations.StepKeepsTheBounds :=
  ⟨fun _ _ hs h => (event_step h).keeps (fun _ _ w => w.boundsOk) hs,
    fun _ _ hs h => (event_step h).keeps (fun _ _ w => w.alertsOk) hs,
    fun _ _ hs h => (event_step h).keeps (fun _ _ w => w.tonesOk) hs,
    fun _ hs p => alerts_length (hs p)⟩

end Sys2Proof
end

section
/-! PROOFS. The rules of loops, holders and places that every later proof reads a state with: a loop after each loop operation, what
leaving a holder frees, the tests over the loops of a position, and the places a call can be put. -/

namespace Sys2Proof.Machine

theorem mem_allPos (p : Pos) : p ∈ allPos := by revert p; decide

theorem mem_allLoops (l : LoopNo) : l ∈ allLoops := by revert l; decide

/-! ### Loops -/

theorem loop_updPos (s : State) (p q : Pos) (f : Position → Position) (m : LoopNo) :
    (s.updPos p f).loop q m = if p = q then (f (s.pos p)).loops[m] else s.loop q m := by
  unfold State.loop
  rw [pos_updPos]
  split <;> rfl

theorem loop_updPos_of {s : State} {p : Pos} {l : LoopNo} {x : LoopState} {f : Position → Position}
    (hf : (f (s.pos p)).loops = ((s.pos p).setLoop l x).loops) (q : Pos) (m : LoopNo) :
    (s.updPos p f).loop q m = if (q, m) = (p, l) then x else s.loop q m := by
  rw [loop_updPos]
  by_cases hp : p = q
  · subst hp
    rw [if_pos rfl, hf, loops_setLoop]
    by_cases hl : l = m
    · subst hl; rw [if_pos rfl, if_pos rfl]
    · rw [if_neg hl, if_neg fun h => hl (Prod.ext_iff.1 h).2.symm]; rfl
  · rw [if_neg hp, if_neg fun h => hp (Prod.ext_iff.1 h).1.symm]

@[simp] theorem loop_after_setLoop (s : State) (p : Pos) (l : LoopNo) (x : LoopState) (q : Pos) (m : LoopNo) :
    (s.setLoop p l x).loop q m = if (q, m) = (p, l) then x else s.loop q m := loop_updPos_of rfl q m

@[simp] theorem loop_after_loopIdle (s : State) (p : Pos) (l : LoopNo) (q : Pos) (m : LoopNo) :
    (s.loopIdle p l).loop q m = if (q, m) = (p, l) then .idle else s.loop q m :=
  loop_updPos_of (f := fun q => (q.setLoop l .idle).dropLoopAlert l) rfl q m

@[simp] theorem loop_after_loopConnecting (s : State) (p : Pos) (l : LoopNo) (i : Slot) (q : Pos) (m : LoopNo) :
    (s.loopConnecting p l i).loop q m = if (q, m) = (p, l) then .connecting i else s.loop q m :=
  loop_updPos_of (f := fun q => { (q.setLoop l (.connecting i)).dropKindAt l .offer with note := none }) rfl q m

theorem loop_foldl_loopIdle (xs : List (Pos × LoopNo)) (s : State) (q : Pos) (m : LoopNo) :
    (xs.foldl (fun t pl => t.loopIdle pl.1 pl.2) s).loop q m = if (q, m) ∈ xs then .idle else s.loop q m := by
  induction xs generalizing s with
  | nil => simp
  | cons x xs ih =>
    rw [List.foldl_cons, ih, loop_after_loopIdle]
    by_cases h1 : (q, m) ∈ xs
    · simp [h1]
    · by_cases h2 : (q, m) = x
      · subst h2; simp
      · rw [if_neg h1, if_neg h2, if_neg (by simp [h1, h2])]

theorem foldl_loopIdle_frame (xs : List (Pos × LoopNo)) (s : State) :
    xs.foldl (fun t pl => t.loopIdle pl.1 pl.2) s =
      { s with positions := (xs.foldl (fun t pl => t.loopIdle pl.1 pl.2) s).positions } :=
  foldl_positions _ (fun _ _ => rfl) xs s

/-! ### Leaving a holder -/

theorem names_iff (x : Orbit) (i : Slot) : x.names i = true ↔ x = .reserved i ∨ x = .occupied i := by
  simp [Orbit.names]

/-- Leaving a holder frees what the location says and nothing else. -/
theorem loop_leaveHolder {s : State} {i : Slot} {r : Record} (h : s.slot i = .live r) (q : Pos) (m : LoopNo) :
    (s.leaveHolder i).loop q m = if r.loc = .loop q m then .idle else s.loop q m := by
  unfold State.leaveHolder
  simp only [(record?_eq_some s i).2 h]
  cases hl : r.loc with
  | loop p l =>
    simp only [loop_after_loopIdle, Location.loop.injEq]
    by_cases hqm : (q, m) = (p, l)
    · cases hqm; simp
    · rw [if_neg hqm, if_neg fun hc => hqm (by rw [hc.1, hc.2])]
  | _ => exact (if_neg nofun).symm

theorem orbit_leaveHolder {s : State} {i : Slot} {r : Record} (h : s.slot i = .live r) (o : OrbitNo) :
    (s.leaveHolder i).orbit o = if (∃ u, r.loc = .parked u) ∧ (s.orbit o).names i = true then .empty else s.orbit o := by
  unfold State.leaveHolder
  simp only [(record?_eq_some s i).2 h]
  cases hl : r.loc with
  | parked u =>
    simp only [orbit_freeOrbits]
    by_cases hn : (s.orbit o).names i = true
    · rw [if_pos hn, if_pos ⟨⟨u, rfl⟩, hn⟩]
    · rw [if_neg hn, if_neg fun hc => hn hc.2]
  | _ => exact (if_neg fun hc => nomatch hc.1).symm

/-! ### The loops of a position (R49, R72, R76) -/

theorem voiceFree_iff (s : State) (p : Pos) : s.voiceFree p = true ↔ ∀ l, s.holdsVoice p l = false := by
  simp only [State.voiceFree, List.all_eq_true, Bool.not_eq_true']
  exact ⟨fun h l => h l (mem_allLoops l), fun h l _ => h l⟩

theorem loopsQuiet_iff (s : State) (p : Pos) :
    s.loopsQuiet p = true ↔ ∀ l, (s.loop p l).onVoicePath = false ∧ (s.loop p l).isAlerting = false := by
  simp only [State.loopsQuiet, List.all_eq_true, Bool.not_eq_true', Bool.or_eq_false_iff]
  exact ⟨fun h l => h l (mem_allLoops l), fun h l _ => h l⟩

theorem lowestIdle_idle {s : State} {p : Pos} {l : LoopNo} (h : s.lowestIdle p = some l) : s.loop p l = .idle := by
  simpa using List.find?_some h

/-! ### The places a call can be put (R112, R116, R120) -/

theorem placeInOrbit_eq {s : State} {i : Slot} {r : Record} (h : s.slot i = .live r) (o : OrbitNo) (p : Pos) :
    s.placeInOrbit i o p = (s.setOrbit o (.occupied i)).setSlot i
      (.live ({ r with loc := .parked o, owner := some p }.armAt .parkRecall (s.tick + s.timing.parkRecall))) := by
  unfold State.placeInOrbit State.armNow
  have h' : (s.setOrbit o (.occupied i)).slot i = .live r := h
  simp only
  rw [updRec_slots_of_live h', updRec_slots_of_live (slot_setSlot_self _ _ _), setSlot_setSlot]
  rfl

theorem campAt_eq {s : State} {i : Slot} {r : Record} (h : s.slot i = .live r) (ext : Digits) :
    s.campAt i ext = ({ s with camp := campWith s.camp ext i } : State).setSlot i
      (.live ({ r with loc := .camped ext, dest := some ext, step := 0 }.armAt .campTimeout (s.tick + s.timing.camp))) := by
  unfold State.campAt State.armNow
  have h' : ({ s with camp := campWith s.camp ext i } : State).slot i = .live r := h
  simp only
  rw [updRec_slots_of_live h', updRec_slots_of_live (slot_setSlot_self _ _ _), setSlot_setSlot]
  rfl

theorem extendTo_eq {s : State} {i : Slot} {r : Record} (h : s.slot i = .live r) (ext : Digits) (owner : Option Pos) :
    s.extendTo i ext owner = s.setSlot i (.live ({ r with loc := .extended ext, dest := some ext, step := 0, owner := owner }.armAt
      .noAnswer (s.tick + s.timing.noAnswer))) := by
  unfold State.extendTo State.armNow
  simp only
  rw [updRec_slots_of_live h, updRec_slots_of_live (slot_setSlot_self _ _ _), setSlot_setSlot]
  rfl

end Sys2Proof.Machine
end

section
/-! PROOFS. Steps, RESET, damaged frames, the session, and the frames a position link sends. -/

namespace Sys2Proof.Machine

theorem equipped_eq_false (x : PosState) : x.equipped = false ↔ x = .absent := by cases x <;> decide

theorem equipped_iff (x : PosState) : x.equipped = true ↔ x ≠ .absent := by cases x <;> decide

/-- With every line quiet the part idles. -/
theorem idle_eq_self {s : State} (hx : s.exchangeTurn = none) (hp : ∀ p, s.positionTurn p = none) : s.idle = s := by
  have hnone : allPos.findSome? s.positionTurn = none := List.findSome?_eq_none_iff.2 fun p _ => hp p
  rw [State.idle, hx, hnone]
  rfl

theorem step_of_pending {s : State} {c : Instr} {rest : List Instr} (h : s.pending = c :: rest) :
    step s = exec c { s with pending := rest } := by
  rw [step, h]

theorem step_of_nil {s : State} (h : s.pending = []) : step s = .next s.idle := by
  rw [step, h]

/-! ### Messages with no decoding, and messages before UP (R140, R145) -/

theorem decoded_none {α : Type} (s : State) (typ : Byte) (act : α → State) : s.decoded typ none act = s.noticed typ 0 := rfl

theorem decoded_some {α : Type} (s : State) (typ : Byte) (a : α) (act : α → State) : s.decoded typ (some a) act = act a := rfl

theorem whileUp_up {s : State} (h : s.link = .up) (typ : Byte) (ref : CallRef) (act : State) : s.whileUp typ ref act = act :=
  if_pos h

theorem whileUp_down {s : State} (h : s.link ≠ .up) (typ : Byte) (ref : CallRef) (act : State) :
    s.whileUp typ ref act = s.noticed typ ref := if_neg h

end Sys2Proof.Machine

namespace Sys2Proof
open Sys2Proof.Machine

/-- Settles O1. -/
theorem stepTakesTheFrontCommand : Obligations.StepTakesTheFrontCommand := by
  refine ⟨fun s c rest h => step_of_pending h, fun s hnil hx hline hpos => ?_⟩
  have hx : s.exchangeTurn = none := (exchangeTurn_eq_none s).2 ⟨hx, hline⟩
  have hp (p : Pos) : s.positionTurn p = none :=
    (positionTurn_eq_none s p).2 ((hpos p).imp_left (equipped_eq_false _).2)
  rw [step_of_nil hnil, idle_eq_self hx hp]

/-- Settles O2: the state after RESET is the reset state with the queue of commands kept. -/
theorem resetGivesTheResetState : Obligations.ResetGivesTheResetState := by
  intro s poseq xrate pcar
  refine ⟨_, rfl, rfl, rfl, slot_atReset poseq xrate pcar, rfl, rfl, rfl, fun o => ?orbit, rfl, rfl, rfl, rfl, rfl, rfl, rfl, rfl,
    fun n => ?tenant, rfl, fun p => ?pos, rfl, rfl, rfl, fun p => ?out⟩
  case orbit => simp [State.orbit, State.atReset]
  case tenant =>
    have h : State.tenant { State.atReset poseq xrate pcar with pending := s.pending } n = Tenant.initial := by
      simp [State.tenant, State.atReset]
    rw [h]
    exact ⟨rfl, rfl, rfl, rfl, rfl, rfl, rfl, rfl, rfl⟩
  case pos =>
    have hp : State.pos { State.atReset poseq xrate pcar with pending := s.pending } p = Position.atReset poseq pcar p :=
      pos_atReset poseq xrate pcar p
    have hl (l : LoopNo) : State.loop { State.atReset poseq xrate pcar with pending := s.pending } p l = .idle := by
      simp [State.loop, hp, Position.atReset]
    rw [hp]
    refine ⟨?_, rfl, hl, rfl, rfl, rfl, rfl, rfl, rfl, rfl, rfl, fun k => ?_, fun j => ?_, ?_⟩
    · simp [Position.atReset, equippedBy, pcarLevel]
    · simp [Position.atReset, Picture.startup]
    · simp [Position.atReset, Picture.startup, Config.space]
    · simp [Position.atReset, equippedBy]
  case out =>
    have hp : State.pos { State.atReset poseq xrate pcar with pending := s.pending } p = Position.atReset poseq pcar p :=
      pos_atReset poseq xrate pcar p
    rw [hp]
    exact ⟨rfl, rfl⟩

/-- Settles O13, by the head of the transmit queue. -/
theorem positionFrameSendSendsTheHead : Obligations.PositionFrameSendSendsTheHead := by
  refine ⟨fun s p hp => ?absent, fun s p rest hp => ?equipped⟩
  case absent =>
    have he : (s.pos p).state.equipped = false := (equipped_eq_false _).2 hp
    show Host.Outcome.next (s.sendFrame p) = _
    rw [State.sendFrame, he]
    rfl
  case equipped =>
    have he : (s.pos p).state.equipped = true := (equipped_iff _).2 hp
    have hexec : exec (.positionFrameSend p) s = .next (s.sendFrame p) := rfl
    rw [hexec, State.sendFrame, if_pos he]
    refine ⟨fun h => ?_, fun x h => ?_, fun k f h => ?_, fun j f h => ?_⟩ <;> rw [h]

/-- Settles O29. -/
theorem damagedAndUnknownFrames : Obligations.DamagedAndUnknownFrames := by
  intro s p typ body
  have hexchange : s.discardFrame .exchange = { s with xrx := .hunting, xout := s.xout ++ [.notice .frameError 0 0] } := rfl
  have hposition : s.discardFrame (.position p) =
      if (s.pos p).state = .absent then s else s.updPos p fun q => { q with rx := .hunting } := by
    rw [State.discardFrame]
    by_cases h : (s.pos p).state = .absent
    · rw [if_pos h, if_neg (by rw [(equipped_eq_false _).2 h]; decide)]
    · rw [if_neg h, if_pos ((equipped_iff _).2 h)]
  refine ⟨fun c hc => ?_, fun c hc => ?_, rfl⟩
  · simp only [List.mem_cons, List.not_mem_nil, or_false] at hc
    obtain rfl | rfl := hc <;> exact congrArg Host.Outcome.next hexchange
  · simp only [List.mem_cons, List.not_mem_nil, or_false] at hc
    obtain rfl | rfl := hc <;> exact congrArg Host.Outcome.next hposition

/-- Settles O30. -/
theorem sessionPauseAndStatus : Obligations.SessionPauseAndStatus := by
  refine fun s x => ⟨fun hdown => ?linkUp, fun hup => ?pause, fun hup => ?resume, rfl⟩
  case linkUp => exact congrArg Host.Outcome.next (if_neg hdown)
  case pause => exact congrArg Host.Outcome.next (whileUp_up hup _ _ _)
  case resume => exact congrArg Host.Outcome.next (whileUp_up hup _ _ _)

end Sys2Proof
end

section
/-! PROOFS. Bodies that are no message (R145), and the tables a body writes (R147 to R149). -/

namespace Sys2Proof.Decode

/-! ### Bodies of another length -/

theorem parseEmpty_eq_none {body : List Byte} (h : body.length ≠ 1) : parseEmpty body = none := by
  match body with
  | [] | _ :: _ :: _ => rfl
  | [_] => exact absurd rfl h

theorem parseRef_eq_none {body : List Byte} (h : body.length ≠ 2) : parseRef body = none := by
  match body with
  | [] | [_] | _ :: _ :: _ :: _ => rfl
  | [_, _] => exact absurd rfl h

theorem parseDestState_eq_none {body : List Byte} (h : body.length ≠ 3) : parseDestState body = none := by
  match body with
  | [] | [_] | [_, _] | _ :: _ :: _ :: _ :: _ => rfl
  | [_, _, _] => exact absurd rfl h

theorem parseResponse_eq_none {body : List Byte} (h : body.length ≠ 5) : parseResponse body = none := by
  unfold parseResponse
  split
  · exact absurd rfl h
  · rfl

theorem parseTimingSet_eq_none {body : List Byte} (h : body.length ≠ 18) : parseTimingSet body = none := by
  unfold parseTimingSet
  split
  · exact absurd rfl h
  · rfl

theorem parsePositionSet_eq_none {body : List Byte} (h : body.length ≠ 7) : parsePositionSet body = none := by
  unfold parsePositionSet
  split
  · exact absurd rfl h
  · rfl

theorem parseExtFree_eq_none {body : List Byte} (h : body.length ≠ 7) : parseExtFree body = none := by
  match body with
  | [] => rfl
  | n :: six => exact if_neg fun hc => h (by simp [hc])

theorem parseTenantSet_eq_none {body : List Byte} (h : body.length ≠ 38) : parseTenantSet body = none := if_neg h

theorem parseArrive_short {body : List Byte} (h : body.length < 6) : parseArrive body = none := by
  unfold parseArrive
  split
  · simp only [List.length_cons] at h; omega
  · rfl

theorem parseArrive_count {body : List Byte} {n : Byte} (hn : body[5]? = some n) (h : body.length ≠ 6 + n.toNat) :
    parseArrive body = none := by
  unfold parseArrive
  split
  · next r1 r0 t c o m ds =>
    have hm : m = n := Option.some.inj hn
    subst hm
    refine if_neg fun hc => h ?_
    simp only [List.length_cons, hc]
    omega
  · rfl

theorem parseArrive_eq {hi lo t c o n : Byte} {ds : List Byte} (h : ds.length = n.toNat) :
    parseArrive (hi :: lo :: t :: c :: o :: n :: ds) = some ⟨hi ++ lo, t, c, o, ds⟩ := if_pos h

/-! ### Malformed extension fields -/

/-- A counted byte above 9 is no digit (R145). -/
theorem digits?_eq_none {bs : List Byte} (h : ∃ b ∈ bs, 9 < b.toNat) : digits? bs = none := by
  induction bs with
  | nil => obtain ⟨b, hb, -⟩ := h; cases hb
  | cons x xs ih =>
    obtain ⟨b, hb, hlarge⟩ := h
    unfold digits?
    rcases List.mem_cons.1 hb with rfl | hb
    · rw [digit?, dif_neg (by omega)]
    · rw [ih ⟨b, hb, hlarge⟩]
      cases digit? x <;> rfl

/-- The fields that R145 calls malformed. -/
theorem parseExtension_eq_none {n : Byte} {six : List Byte}
    (h : n.toNat = 1 ∨ 6 < n.toNat ∨ ∃ b ∈ six.take n.toNat, 9 < b.toNat) : parseExtension n six = none := by
  have hzero : n ≠ 0 := by
    rintro rfl
    obtain h | h | ⟨b, hb, -⟩ := h
    · cases h
    · exact absurd h (by decide)
    · cases hb
  rw [parseExtension, if_neg hzero]
  by_cases hcount : n.toNat = 1 ∨ 6 < n.toNat
  · rw [if_pos hcount]
  · rw [if_neg hcount, digits?_eq_none ((h.resolve_left fun hc => hcount (.inl hc)).resolve_left fun hc => hcount (.inr hc))]
    rfl

theorem parseExtFree_malformed {n : Byte} {six : List Byte}
    (h : n.toNat ≤ 1 ∨ 6 < n.toNat ∨ ∃ b ∈ six.take n.toNat, 9 < b.toNat) : parseExtFree (n :: six) = none := by
  by_cases hlen : six.length = 6
  · rw [parseExtFree, if_pos hlen]
    by_cases hzero : n = 0
    · subst hzero; rfl
    · have hpos : n.toNat ≠ 0 := fun hc => hzero (BitVec.eq_of_toNat_eq hc)
      rw [parseExtension_eq_none (h.imp_left fun hle => by omega)]
      rfl
  · exact parseExtFree_eq_none fun hc => hlen (by simpa using hc)

/-- A field of seven bytes carries its extension, or none with no digit (R150, R147). -/
theorem parseExtension_extField {ext : Digits} {pad : List Byte} (h : Machine.extFieldOk ext pad) :
    parseExtension (BitVec.ofNat 8 ext.length) (ext.map (fun d : Fin 10 => BitVec.ofNat 8 d.val) ++ pad) =
      some (if ext = [] then none else some ext) := by
  obtain ⟨hone, hsum⟩ := h
  by_cases hnil : ext = []
  · subst hnil; rfl
  · have hpos : 0 < ext.length := List.length_pos_iff.2 hnil
    rw [if_neg hnil, parseExtension_digits pad (by omega) (by omega)]

/-! ### TENANT_SET -/

/-- The fields of a TENANT_SET body where they stand (R153). -/
theorem parseTenantSet_eq {t sv cb a1 a0 w os th oc nc : Byte} {tag oSix nSix : List Byte} (htag : tag.length = 16)
    (ho : oSix.length = 6) (hn : nSix.length = 6) :
    parseTenantSet (t :: sv :: (tag ++ cb :: a1 :: a0 :: w :: os :: th :: oc :: (oSix ++ nc :: nSix))) =
      if h : t.toNat < 16 then
        match parseExtension oc oSix, parseExtension nc nSix with
        | some od, some nd => some ⟨⟨t.toNat, h⟩, sv, tag, cb, Byte.pair a1 a0, w, os, th, od, nd⟩
        | _, _ => none
      else none := by
  have hlen : (t :: sv :: (tag ++ cb :: a1 :: a0 :: w :: os :: th :: oc :: (oSix ++ nc :: nSix))).length = 38 := by
    simp [htag, ho, hn]
  simp only [parseTenantSet, if_pos hlen, List.drop_left' htag, List.take_left' htag, List.drop_left' ho, List.take_left' ho] <;> rfl

theorem parseTenantSet_malformed {t sv cb a1 a0 w os th oc nc : Byte} {tag oSix nSix : List Byte} (htag : tag.length = 16)
    (ho : oSix.length = 6) (hn : nSix.length = 6)
    (h : 15 < t.toNat ∨ parseExtension oc oSix = none ∨ parseExtension nc nSix = none) :
    parseTenantSet (t :: sv :: (tag ++ cb :: a1 :: a0 :: w :: os :: th :: oc :: (oSix ++ nc :: nSix))) = none := by
  rw [parseTenantSet_eq htag ho hn]
  by_cases ht : t.toNat < 16
  · rw [dif_pos ht]
    obtain h | h | h := h
    · omega
    · rw [h]
    · rw [h]
      cases parseExtension oc oSix <;> rfl
  · exact dif_neg ht

/-- The 23 bytes between tenant and overflow extension by their fields. -/
theorem tenantFields_cases {fields : List Byte} (h : fields.length = 23) :
    ∃ sv tag cb a1 a0 w os th, fields = sv :: (tag ++ [cb, a1, a0, w, os, th]) ∧ tag.length = 16 := by
  match fields, h with
  | sv :: rest, h =>
    have hrest : rest.length = 22 := by simpa using h
    have hdrop : (rest.drop 16).length = 6 := by simp [hrest]
    match hd : rest.drop 16, hdrop with
    | [cb, a1, a0, w, os, th], _ =>
      exact ⟨sv, rest.take 16, cb, a1, a0, w, os, th, by rw [← hd, List.take_append_drop], by simp [hrest]⟩

end Sys2Proof.Decode

namespace Sys2Proof.Machine

theorem clampInterval_eq (v : BitVec 16) : clampInterval v = keptInterval v := by
  unfold clampInterval keptInterval
  by_cases hz : v = 0
  · rw [if_pos hz, if_pos (by rw [hz]; rfl)]
  · have hpos : v.toNat ≠ 0 := fun hc => hz (BitVec.eq_of_toNat_eq hc)
    rw [if_neg hz, if_neg hpos]
    by_cases hmax : 32767 < v.toNat
    · rw [if_pos hmax, if_neg (by simpa [Config.maxInterval] using hmax)]
    · rw [if_neg hmax, if_pos (by simpa [Config.maxInterval] using hmax)]

theorem pair_wordBytes (v : BitVec 16) : Byte.pair (v.extractLsb' 8 8) (v.extractLsb' 0 8) = v := by
  unfold Byte.pair
  ext i hi
  rw [BitVec.getElem_append]
  split
  · next h => simp [BitVec.getLsbD_eq_getElem hi]
  · next h =>
    simp only [BitVec.getElem_extractLsb']
    rw [BitVec.getLsbD_eq_getElem (by omega)]
    congr 1
    omega

end Sys2Proof.Machine

namespace Sys2Proof
open Sys2Proof.Machine

/-- Settles O28: a body with no decoding brings the notice of reference 0, and a decoded one before UP that of its reference. -/
theorem messagesNotTakenBringANotice : Obligations.MessagesNotTakenBringANotice := by
  refine ⟨fun s x k hi lo t c o n d ds ext pad hdown => ?beforeUp, fun s body => ?lengths, fun s n x six hsix => ?fields,
    fun s t oc nc fields oSix nSix hfields ho hn => ?tenant⟩
  case beforeUp =>
    have discarded {act : State} (typ : Byte) (ref : CallRef) :
        Host.Outcome.next (s.whileUp typ ref act) = (.next (s.noticed typ ref) : Host.Outcome State Fault Refusal) :=
      congrArg Host.Outcome.next (whileUp_down hdown typ ref act)
    refine ⟨discarded _ _, fun hlen => ?_, discarded _ _, discarded _ _, discarded _ _, fun hne hok => ?_, discarded _ _,
      discarded _ _, discarded _ _, discarded _ _, discarded _ _⟩
    · show execArrive _ s = _
      rw [execArrive, Decode.parseArrive_eq hlen]
      exact discarded _ _
    · rw [exec_extFree hne hok, if_neg hdown]
  case lengths =>
    have notice {α : Type} {m : Option α} {act : α → State} (typ : Byte) (hm : m = none) :
        Host.Outcome.next (s.decoded typ m act) = (.next (s.noticed typ 0) : Host.Outcome State Fault Refusal) := by
      rw [hm, decoded_none]
    refine ⟨fun h => ?_, fun h => notice _ (Decode.parseRef_eq_none h), fun h => ?_, fun h => ?_, fun h => ?_,
      fun h => notice _ (by rw [Decode.parseTimingSet_eq_none h]; rfl), fun h => notice _ (Decode.parseTenantSet_eq_none h),
      fun h => notice _ (Decode.parseArrive_short h), fun n hn h => notice _ (Decode.parseArrive_count hn h)⟩
    · have hm := Decode.parseEmpty_eq_none h
      exact ⟨notice _ hm, notice _ hm, notice _ hm, notice _ hm, notice _ hm⟩
    · have hm := Decode.parseDestState_eq_none h
      exact ⟨notice _ hm, notice _ hm⟩
    · have hm := Decode.parseResponse_eq_none h
      exact ⟨notice _ hm, notice _ hm, notice _ hm⟩
    · exact ⟨notice _ (Decode.parseExtFree_eq_none h), notice _ (Decode.parsePositionSet_eq_none h)⟩
  case fields =>
    refine ⟨fun h => ?_, fun hx => ?_⟩
    · show execExtFree _ s = _
      rw [execExtFree, Decode.parseExtFree_malformed h, decoded_none]
      rfl
    · have hparse : Decode.parsePositionSet (x :: six) = none := by
        match six, hsix with
        | [_, _, _, _, _, _], _ => exact dif_neg (by omega)
      show execPositionSet _ s = _
      rw [execPositionSet, hparse, decoded_none]
      rfl
  case tenant =>
    intro malformed h
    obtain ⟨sv, tag, cb, a1, a0, w, os, th, rfl, htag⟩ := Decode.tenantFields_cases hfields
    have hbody : [t] ++ (sv :: (tag ++ [cb, a1, a0, w, os, th])) ++ [oc] ++ oSix ++ [nc] ++ nSix =
        t :: sv :: (tag ++ cb :: a1 :: a0 :: w :: os :: th :: oc :: (oSix ++ nc :: nSix)) := by simp
    have hparse := Decode.parseTenantSet_malformed (t := t) (sv := sv) (cb := cb) (a1 := a1) (a0 := a0) (w := w) (os := os)
      (th := th) htag ho hn
      (h.imp_right fun h => h.imp Decode.parseExtension_eq_none Decode.parseExtension_eq_none)
    show execTenantSet _ s = _
    rw [execTenantSet, hbody, hparse, decoded_none]
    rfl

/-- Settles O48: the body is read back field by field, and each field is stored as R147 and R148 clamp it. -/
theorem tablesAreWrittenClamped : Obligations.TablesAreWrittenClamped := by
  refine ⟨fun s t sv cb w os th aging tag od nd pad pad' htag hod hnd => ?tenant, fun s a b c d e f g h i => ?timing⟩
  case tenant =>
    have ht : (BitVec.ofNat 8 t.val).toNat = t.val := by simp only [BitVec.toNat_ofNat]; omega
    have hlen {ext : Digits} {pad : List Byte} (h : extFieldOk ext pad) :
        (ext.map (fun x : Fin 10 => BitVec.ofNat 8 x.val) ++ pad).length = 6 := by
      rw [List.length_append, List.length_map, h.2]
    have hbody : [BitVec.ofNat 8 t.val, sv] ++ tag ++ [cb] ++ wordBytes aging ++ [w, os, th] ++ extField od pad ++ extField nd pad' =
        BitVec.ofNat 8 t.val :: sv :: (tag ++ cb :: aging.extractLsb' 8 8 :: aging.extractLsb' 0 8 :: w :: os :: th ::
          BitVec.ofNat 8 od.length :: ((od.map (fun x : Fin 10 => BitVec.ofNat 8 x.val) ++ pad) ++
            BitVec.ofNat 8 nd.length :: (nd.map (fun x : Fin 10 => BitVec.ofNat 8 x.val) ++ pad'))) := by
      simp [extField, wordBytes]
    have hparse := Decode.parseTenantSet_eq (t := BitVec.ofNat 8 t.val) (sv := sv) (cb := cb) (a1 := aging.extractLsb' 8 8)
      (a0 := aging.extractLsb' 0 8) (w := w) (os := os) (th := th) (oc := BitVec.ofNat 8 od.length)
      (nc := BitVec.ofNat 8 nd.length) htag (hlen hod) (hlen hnd)
    rw [dif_pos (by omega), Decode.parseExtension_extField hod, Decode.parseExtension_extField hnd] at hparse
    show execTenantSet _ s = _
    rw [execTenantSet, hbody, hparse, decoded_some]
    simp only [tenantOfWrite, clampInterval_eq, pair_wordBytes, ht]
    congr 5
    · cases h : decide (sv ≠ 0) <;> simp_all
  case timing =>
    show execTimingSet _ s = _
    simp only [execTimingSet, wordBytes, List.cons_append, List.nil_append, Decode.parseTimingSet, Option.bind_some, timingOfWrite,
      decoded_some, clampInterval_eq, pair_wordBytes]

end Sys2Proof
end

section
/-! PROOFS. Tones after a tone repeat and after a write of the masks (R160, R149). -/

namespace Sys2Proof.Machine

theorem any_sounding_iff (q : Position) :
    q.alerts.any q.sounding = true ↔ ∃ a ∈ q.alerts, q.toneMask.getLsbD a.kind.bit = true := by
  simp [Position.sounding, inMask]

theorem repeatTone_eq (q : Position) :
    q.repeatTone = if ∃ a ∈ q.alerts, q.toneMask.getLsbD a.kind.bit = true ∧ a.kind = .offer then .ring else .beep := by
  unfold Position.repeatTone
  refine if_congr ?_ rfl rfl
  simp [Position.sounding, inMask]

/-- The repeats of a position: with an entry sounding its tone joins the transmit queue while there is room (R160, R156). -/
theorem sound_repeatTone (q : Position) :
    q.sound q.repeatTone = { q with
      txq := q.txq ++ (if (q.txq.filter TxEntry.isTone).length < 4 then
        [.tone (if ∃ a ∈ q.alerts, q.toneMask.getLsbD a.kind.bit = true ∧ a.kind = .offer then .ring else .beep)] else []) } := by
  rw [sound_eq, repeatTone_eq]
  rfl

theorem toneDue_eq (q : Position) (now : Tick) :
    q.toneDue now =
      if ∃ a ∈ q.alerts, q.toneMask.getLsbD a.kind.bit = true then
        { q with
          toneRepeat := some (now + 30)
          txq := q.txq ++ (if (q.txq.filter TxEntry.isTone).length < 4 then
            [.tone (if ∃ a ∈ q.alerts, q.toneMask.getLsbD a.kind.bit = true ∧ a.kind = .offer then .ring else .beep)]
            else []) }
      else { q with toneRepeat := none } := by
  unfold Position.toneDue
  refine if_congr (any_sounding_iff q) ?_ rfl
  rw [sound_repeatTone]
  rfl

theorem afterToneMask_eq (q : Position) (now : Tick) :
    q.afterToneMask now =
      if ∃ a ∈ q.alerts, q.toneMask.getLsbD a.kind.bit = true then
        if q.toneRepeat = none then
          { q with
            toneRepeat := some (now + 30)
            txq := q.txq ++ (if (q.txq.filter TxEntry.isTone).length < 4 then
              [.tone (if ∃ a ∈ q.alerts, q.toneMask.getLsbD a.kind.bit = true ∧ a.kind = .offer then .ring else .beep)]
              else []) }
        else q
      else { q with toneRepeat := none } := by
  unfold Position.afterToneMask
  refine if_congr (any_sounding_iff q) ?_ rfl
  rcases h : q.toneRepeat with - | d
  · rw [sound_repeatTone]
    rfl
  · rfl

theorem expired_iff (t d : Tick) : expired t d = true ↔ (t - d).toNat < 32768 := decide_eq_true_iff

theorem not_expired {t d : Tick} (h : 32768 ≤ (t - d).toNat) : ¬ expired t d = true := fun hc =>
  absurd ((expired_iff t d).1 hc) (by omega)

theorem parsePositionSet_eq (p : Pos) (tm lm nm : BitVec 16) :
    Decode.parsePositionSet ([BitVec.ofNat 8 p.val] ++ wordBytes tm ++ wordBytes lm ++ wordBytes nm) =
      some ⟨p, tm, lm.setWidth 11, nm.setWidth 11⟩ := by
  have hp : (BitVec.ofNat 8 p.val).toNat = p.val := by simp only [BitVec.toNat_ofNat]; omega
  simp only [wordBytes, List.cons_append, List.nil_append, Decode.parsePositionSet, pair_wordBytes]
  rw [dif_pos (by omega)]
  simp only [hp]

end Sys2Proof.Machine

namespace Sys2Proof
open Sys2Proof.Machine

/-- Settles O27. -/
theorem toneRepeatSoundsAgain : Obligations.ToneRepeatSoundsAgain := by
  intro s p
  have hexec : exec (.toneRepeatExpiry p) s = .next (match (s.pos p).toneRepeat with
      | some d => if expired s.tick d then s.updPos p fun q => q.toneDue s.tick else s
      | none => s) := rfl
  rw [hexec]
  refine ⟨fun d hd hdue => ?due, fun h => ?notDue⟩
  case due =>
    rw [hd]
    simp only [if_pos ((expired_iff _ _).2 hdue)]
    exact congrArg (fun f => Host.Outcome.next (s.updPos p f)) (funext fun q => toneDue_eq q s.tick)
  case notDue =>
    cases hd : (s.pos p).toneRepeat with
    | none => rfl
    | some d => exact congrArg Host.Outcome.next (if_neg (not_expired (h d hd)))

/-- Settles O49. -/
theorem positionSetReplacesTheMasks : Obligations.PositionSetReplacesTheMasks := by
  intro s p tm lm nm
  show execPositionSet _ s = _
  rw [execPositionSet, parsePositionSet_eq, decoded_some]
  by_cases hp : (s.pos p).state = .absent
  · rw [if_pos hp, if_neg (by rw [(equipped_eq_false _).2 hp]; decide)]
  · rw [if_neg hp, if_pos ((equipped_iff _).2 hp)]
    exact congrArg (fun f => Host.Outcome.next (State.finishOffers (s.updPos p f)))
      (funext fun q => afterToneMask_eq { q with
        tenantMask := tm, latchMask := lm.setWidth 11, toneMask := nm.setWidth 11 } s.tick)

end Sys2Proof
end

section
/-! PROOFS. The chosen call (R42) and the arithmetic of deadlines (R29, R30, R34). -/

namespace Sys2Proof.Machine

/-! ### The chosen call -/

theorem bestOf_cons_of_none {s : State} {i : Slot} {is : List Slot} (h : s.bestOf is = none) : s.bestOf (i :: is) = some i := by
  rw [State.bestOf, h]

theorem bestOf_cons_of_some {s : State} {i j : Slot} {is : List Slot} (h : s.bestOf is = some j) :
    s.bestOf (i :: is) = if s.rankOf j ≤ s.rankOf i then some i else some j := by
  rw [State.bestOf, h]

theorem bestOf_isSome {s : State} {is : List Slot} (h : is ≠ []) : (s.bestOf is).isSome = true := by
  match is, h with
  | i :: is, _ =>
    cases hb : s.bestOf is with
    | none => rw [bestOf_cons_of_none hb]; rfl
    | some j =>
      rw [bestOf_cons_of_some hb]
      split <;> rfl

theorem bestOf_eq_none_iff {s : State} {is : List Slot} : s.bestOf is = none ↔ is = [] := by
  refine ⟨fun h => ?_, fun h => by rw [h]; rfl⟩
  by_contra hne
  have := bestOf_isSome (s := s) hne
  rw [h] at this
  cases this

/-- The chosen call stands before no call of higher rank and behind no call of the same rank. -/
theorem bestOf_split {s : State} : ∀ {is : List Slot} {i : Slot}, s.bestOf is = some i → ∃ a b, is = a ++ i :: b ∧
    (∀ j ∈ a, s.rankOf j < s.rankOf i) ∧ ∀ j ∈ b, s.rankOf j ≤ s.rankOf i
  | [], i, h => by cases h
  | x :: xs, i, h => by
    cases hb : s.bestOf xs with
    | none =>
      rw [bestOf_cons_of_none hb] at h
      cases h
      rw [bestOf_eq_none_iff.1 hb]
      exact ⟨[], [], rfl, nofun, nofun⟩
    | some k =>
      obtain ⟨a, b, rfl, ha, hb'⟩ := bestOf_split hb
      rw [bestOf_cons_of_some hb] at h
      split at h
      · next hle =>
        cases h
        refine ⟨[], a ++ k :: b, rfl, nofun, fun j hj => ?_⟩
        rcases List.mem_append.1 hj with hj | hj
        · exact Nat.le_trans (Nat.le_of_lt (ha j hj)) hle
        · rcases List.mem_cons.1 hj with rfl | hj
          · exact hle
          · exact Nat.le_trans (hb' j hj) hle
      · next hlt =>
        cases h
        refine ⟨x :: a, b, rfl, fun j hj => ?_, hb'⟩
        rcases List.mem_cons.1 hj with rfl | hj
        · exact Nat.lt_of_not_le hlt
        · exact ha j hj

/-! ### Deadlines -/

theorem toNat_sub_tick (a b : Tick) : (a - b).toNat = (a.toNat + (65536 - b.toNat)) % 65536 := by
  rw [BitVec.toNat_sub]; omega

theorem toNat_add_tick (a b : Tick) : (a + b).toNat = (a.toNat + b.toNat) % 65536 := BitVec.toNat_add a b

/-- A deadline ahead by at most 32768 ticks has not expired (R30). -/
theorem expired_of_ahead {t d : Tick} (hpos : 1 ≤ (d - t).toNat) (hle : (d - t).toNat ≤ 32767) : expired t d = false := by
  refine decide_eq_false ?_
  rw [toNat_sub_tick] at *
  have := t.isLt
  have := d.isLt
  omega

theorem sub_succ_tick (t : Tick) : (t + 1 - t).toNat = 1 := by
  rw [toNat_sub_tick, toNat_add_tick]
  have := t.isLt
  have hone : (1 : Tick).toNat = 1 := rfl
  omega

/-- A re-armed deadline lies ahead by at most the interval (R34). -/
theorem rearmed_ahead (t base : Tick) {iv : Interval} (hpos : 1 ≤ iv.toNat) :
    1 ≤ (rearmed t base iv - t).toNat ∧ (rearmed t base iv - t).toNat ≤ iv.toNat := by
  unfold rearmed
  simp only
  split
  · next h => exact h
  · rw [sub_succ_tick]
    exact ⟨Nat.le_refl 1, hpos⟩

end Sys2Proof.Machine

namespace Sys2Proof
open Sys2Proof.Machine

/-- Settles O15. -/
theorem bestCallIsHighestRankThenEarliest : Obligations.BestCallIsHighestRankThenEarliest :=
  fun _ _ => ⟨bestOf_isSome, fun _ h => bestOf_split h⟩

/-- Settles O17: both parts come down to arithmetic below 65536. -/
theorem deadlinesExpireAtTheirTick : Obligations.DeadlinesExpireAtTheirTick := by
  refine ⟨fun t iv k hpos hmax hk => ?armed, fun t base iv hpos hmax => ⟨rfl, ?ahead, rearmed_ahead t base hpos⟩⟩
  case armed =>
    refine decide_eq_decide.2 ?_
    rw [toNat_sub_tick, toNat_add_tick, toNat_add_tick]
    have hk' : (BitVec.ofNat 16 k).toNat = k := by rw [BitVec.toNat_ofNat]; omega
    have := t.isLt
    omega
  case ahead =>
    obtain ⟨hge, hle⟩ := rearmed_ahead t base hpos
    exact expired_of_ahead hge (Nat.le_trans hle hmax)

end Sys2Proof
end

section
/-! PROOFS. What the operations on a loop, an alert list and a note show at a position, one rule for each (R159, R160, R162, R163). -/

namespace Sys2Proof.Machine

/-! ### Positions -/

theorem enters_iff (q : Position) (k : AlertKind) :
    q.enters k = true ↔ (q.state = .opened ∨ q.state = .withdrawn) ∧ q.latchMask.getLsbD k.bit = true := by
  rw [Position.enters, Bool.and_eq_true, staffed_iff, inMask]

theorem Position.sameSettings.refl (q : Position) : q.sameSettings q := ⟨rfl, rfl, rfl, rfl, rfl, rfl, rfl, rfl, rfl, rfl⟩

theorem Position.sameSettings.trans {a b c : Position} (h : a.sameSettings b) (h' : b.sameSettings c) : a.sameSettings c := by
  obtain ⟨h1, h2, h3, h4, h5, h6, h7, h8, h9, h10⟩ := h
  obtain ⟨k1, k2, k3, k4, k5, k6, k7, k8, k9, k10⟩ := h'
  exact ⟨k1.trans h1, k2.trans h2, k3.trans h3, k4.trans h4, k5.trans h5, k6.trans h6, k7.trans h7, k8.trans h8, k9.trans h9,
    k10.trans h10⟩

/-- Raising a loop's alert, exactly (R162, R160). -/
theorem raiseLoop_eq (q : Position) (now : Tick) (k : AlertKind) (l : LoopNo) :
    q.raiseLoop now k l = { q with
      alerts := alertsAfter q k l q.alerts
      toneRepeat :=
        if (q.state = .opened ∨ q.state = .withdrawn) ∧ q.latchMask.getLsbD k.bit = true then
          if q.toneMask.getLsbD k.bit = true then some (now + 30) else q.toneRepeat
        else q.toneRepeat
      txq := q.txq ++ raisedTones q k } := by
  unfold Position.raiseLoop alertsAfter raisedTones
  by_cases h : (q.state = .opened ∨ q.state = .withdrawn) ∧ q.latchMask.getLsbD k.bit = true
  · rw [if_pos ((enters_iff q k).2 h), soundEntered_eq]
    by_cases hm : q.toneMask.getLsbD k.bit = true
    · simp only [inMask, hm, if_true, h, true_and, and_self, Config.toneRepeat, Config.tonePlaces]
      congr
    · simp only [inMask, hm, h, and_self, if_true, if_false, false_and, and_false, Bool.false_eq_true, List.append_nil]
  · rw [if_neg fun hc => h ((enters_iff q k).1 hc)]
    simp only [if_neg h, if_neg fun hc : _ ∧ _ => h hc.1, List.append_nil]

theorem sounding_filter_iff (q : Position) (keep : Alert → Bool) :
    (q.alerts.any q.sounding && !(q.alerts.filter keep).any q.sounding) = true ↔
      (∃ x ∈ q.alerts, q.toneMask.getLsbD x.kind.bit = true) ∧
        ∀ x ∈ q.alerts, keep x = true → q.toneMask.getLsbD x.kind.bit = false := by
  simp [Position.sounding, inMask]

/-! ### What a position shows after each operation -/

theorem viewRaised_congr {s t : State} {p : Pos} (h : (s.pos p).sameSettings (t.pos p)) (htick : t.tick = s.tick) (k : AlertKind)
    (l : LoopNo) (a : AlertView) : t.viewRaised p k l a = s.viewRaised p k l a := by
  obtain ⟨hstate, -, -, hlatch, htone, -⟩ := h
  simp only [State.viewRaised, alertsAfter, State.repeatRaised, hstate, hlatch, htone, htick]

theorem viewKept_congr {s t : State} {p : Pos} (h : (s.pos p).sameSettings (t.pos p)) (keep : Alert → Bool) (a : AlertView) :
    t.viewKept p keep a = s.viewKept p keep a := by
  obtain ⟨-, -, -, -, htone, -⟩ := h
  simp only [State.viewKept, htone]

theorem raisedTones_congr {q q' : Position} (h : q.sameSettings q') (htxq : q'.txq = q.txq) (k : AlertKind) :
    raisedTones q' k = raisedTones q k := by
  obtain ⟨hstate, -, -, hlatch, htone, -⟩ := h
  simp only [raisedTones, hstate, hlatch, htone, htxq]

theorem view_raiseLoop (s : State) (p : Pos) (k : AlertKind) (l : LoopNo) :
    (s.raiseLoop p k l).view p = s.viewRaised p k l (s.view p) := by
  simp only [State.view, State.raiseLoop, pos_updPos_self, raiseLoop_eq]
  rfl

theorem view_keepAlerts (s : State) (p : Pos) (keep : Alert → Bool) (f : Position → Position)
    (hf : ∀ q, (f q).alerts = (q.keepAlerts keep).alerts ∧ (f q).toneRepeat = (q.keepAlerts keep).toneRepeat) :
    (s.updPos p f).view p = s.viewKept p keep (s.view p) := by
  simp only [State.view, pos_updPos_self, (hf _).1, (hf _).2, State.viewKept]
  refine congrArg₂ AlertView.mk rfl ?_
  exact if_congr (sounding_filter_iff _ _) rfl rfl

theorem view_loopIdle (s : State) (p : Pos) (l : LoopNo) : (s.loopIdle p l).view p = s.viewWithout p l (s.view p) :=
  view_keepAlerts s p _ _ fun _ => ⟨rfl, rfl⟩

theorem view_loopConnecting (s : State) (p : Pos) (l : LoopNo) (i : Slot) :
    (s.loopConnecting p l i).view p = s.viewWithoutKind p l .offer (s.view p) :=
  view_keepAlerts s p _ _ fun _ => ⟨rfl, rfl⟩

theorem view_dropKindAt (s : State) (p : Pos) (l : LoopNo) (k : AlertKind) :
    (s.updPos p fun q => q.dropKindAt l k).view p = s.viewWithoutKind p l k (s.view p) :=
  view_keepAlerts s p _ _ fun _ => ⟨rfl, rfl⟩

theorem view_of_pos {s t : State} {p : Pos} (h : t.pos p = s.pos p) : t.view p = s.view p := by simp only [State.view, h]

/-! ### An event's work at one loop, operation by operation -/

namespace State.workAt

variable {s u : State} {p : Pos} {l : LoopNo} {x : LoopState} {shown : AlertView} {note : Option Note} {tones : List TxEntry}

theorem refl (s : State) (p : Pos) (l : LoopNo) : s.workAt s p l (s.loop p l) (s.view p) (s.pos p).note [] :=
  ⟨rfl, fun _ _ => rfl, fun _ _ => rfl, .refl _, rfl, rfl, (List.append_nil _).symm⟩

/-- Only the positions count. -/
theorem of_positions {v : State} (h : s.workAt u p l x shown note tones) (hv : v.positions = u.positions) :
    s.workAt v p l x shown note tones := by
  have hpos (q : Pos) : v.pos q = u.pos q := by simp only [State.pos, hv]
  obtain ⟨hl, hloops, hothers, hset, hview, hnote, htxq⟩ := h
  have hloop (q : Pos) (m : LoopNo) : v.loop q m = u.loop q m := by simp only [State.loop, hpos]
  refine ⟨(hloop p l).trans hl, fun m hm => (hloop p m).trans (hloops m hm), fun q hq => (hpos q).trans (hothers q hq), ?_,
    (view_of_pos (hpos p)).trans hview, ?_, ?_⟩ <;> rw [hpos p] <;> assumption

theorem of_eq {y : LoopState} (h : s.workAt u p l y shown note tones) (hy : y = x) : s.workAt u p l x shown note tones := hy ▸ h

/-- One more change of the position: its effect on the loop, the view, the note and the transmit queue. -/
theorem updPos {f : Position → Position} {y : LoopState} {shown' : AlertView} {note' : Option Note} {more : List TxEntry}
    (h : s.workAt u p l x shown note tones) (hl : (u.updPos p f).loop p l = y) (hloops : u.sameLoops (u.updPos p f) p l)
    (hset : (u.pos p).sameSettings (f (u.pos p))) (hview : (u.updPos p f).view p = shown')
    (hnote : (f (u.pos p)).note = note') (htxq : (f (u.pos p)).txq = (u.pos p).txq ++ more) :
    s.workAt (u.updPos p f) p l y shown' note' (tones ++ more) := by
  obtain ⟨-, hl0, hothers0, hset0, -, -, htxq0⟩ := h
  refine ⟨hl, fun m hm => (hloops m hm).trans (hl0 m hm), fun q hq => ?_, ?_, hview, ?_, ?_⟩
  · rw [pos_updPos_ne _ _ _ _ (Ne.symm hq)]
    exact hothers0 q hq
  · rw [pos_updPos_self]
    exact hset0.trans hset
  · rw [pos_updPos_self, hnote]
  · rw [pos_updPos_self, htxq, htxq0, List.append_assoc]

theorem raiseLoop (h : s.workAt u p l x shown note tones) (htick : u.tick = s.tick) (k : AlertKind) :
    s.workAt (u.raiseLoop p k l) p l x (s.viewRaised p k l shown) note
      (tones ++ raisedTones { s.pos p with txq := (s.pos p).txq ++ tones } k) := by
  obtain ⟨hl, hloops, hothers, hset, hview, hnote, htxq⟩ := id h
  refine h.updPos ?_ (fun m hm => ?_) ?_ ?_ ?_ ?_
  · rw [← hl]; simp only [State.loop, pos_updPos_self, raiseLoop_eq]
  · simp only [State.loop, pos_updPos_self, raiseLoop_eq]
  · rw [raiseLoop_eq]; exact ⟨rfl, rfl, rfl, rfl, rfl, rfl, rfl, rfl, rfl, rfl⟩
  · exact (view_raiseLoop u p k l).trans (by rw [hview, viewRaised_congr hset htick])
  · rw [raiseLoop_eq, ← hnote]
  · rw [raiseLoop_eq]
    refine congrArg _ (raisedTones_congr ?_ htxq k)
    exact Position.sameSettings.trans ⟨rfl, rfl, rfl, rfl, rfl, rfl, rfl, rfl, rfl, rfl⟩ hset

theorem setLoop (h : s.workAt u p l x shown note tones) (y : LoopState) :
    s.workAt (u.setLoop p l y) p l y shown note tones := by
  obtain ⟨hl, hloops, hothers, hset, hview, hnote, htxq⟩ := id h
  have hmore := h.updPos (f := fun q => q.setLoop l y) (y := y) (shown' := shown) (note' := note) (more := [])
    ((loop_setLoop u p l l y).trans (if_pos rfl)) (fun m hm => (loop_setLoop u p l m y).trans (if_neg hm.symm))
    ⟨rfl, rfl, rfl, rfl, rfl, rfl, rfl, rfl, rfl, rfl⟩
    (by rw [← hview]; simp only [State.view, pos_updPos_self]; rfl) hnote (List.append_nil _).symm
  rwa [List.append_nil] at hmore

theorem loopIdle (h : s.workAt u p l x shown note tones) :
    s.workAt (u.loopIdle p l) p l .idle (s.viewWithout p l shown) note tones := by
  obtain ⟨hl, hloops, hothers, hset, hview, hnote, htxq⟩ := id h
  have hmore := h.updPos (f := fun q => (q.setLoop l .idle).dropLoopAlert l) (y := .idle) (shown' := s.viewWithout p l shown)
    (note' := note) (more := [])
    ((loop_loopIdle u p l l).trans (if_pos rfl)) (fun m hm => (loop_loopIdle u p l m).trans (if_neg hm.symm))
    ⟨rfl, rfl, rfl, rfl, rfl, rfl, rfl, rfl, rfl, rfl⟩
    ((view_loopIdle u p l).trans (by rw [hview]; exact viewKept_congr hset _ _)) hnote (List.append_nil _).symm
  rwa [List.append_nil] at hmore

theorem loopConnecting (h : s.workAt u p l x shown note tones) (i : Slot) :
    s.workAt (u.loopConnecting p l i) p l (.connecting i) (s.viewWithoutKind p l .offer shown) none tones := by
  obtain ⟨hl, hloops, hothers, hset, hview, hnote, htxq⟩ := id h
  have hmore := h.updPos (f := fun q => { (q.setLoop l (.connecting i)).dropKindAt l .offer with note := none })
    (y := .connecting i) (shown' := s.viewWithoutKind p l .offer shown) (note' := none) (more := [])
    ((loop_loopConnecting u p l l i).trans (if_pos rfl)) (fun m hm => (loop_loopConnecting u p l m i).trans (if_neg hm.symm))
    ⟨rfl, rfl, rfl, rfl, rfl, rfl, rfl, rfl, rfl, rfl⟩
    ((view_loopConnecting u p l i).trans (by rw [hview]; exact viewKept_congr hset _ _)) rfl (List.append_nil _).symm
  rwa [List.append_nil] at hmore

theorem dropKindAt (h : s.workAt u p l x shown note tones) (k : AlertKind) :
    s.workAt (u.updPos p fun q => q.dropKindAt l k) p l x (s.viewWithoutKind p l k shown) note tones := by
  obtain ⟨hl, hloops, hothers, hset, hview, hnote, htxq⟩ := id h
  have hsame (m : LoopNo) : (u.updPos p fun q => q.dropKindAt l k).loop p m = u.loop p m := by
    simp only [State.loop, pos_updPos_self]; rfl
  have hmore := h.updPos (f := fun q => q.dropKindAt l k) (y := x) (shown' := s.viewWithoutKind p l k shown) (note' := note)
    (more := []) ((hsame l).trans hl) (fun m _ => hsame m) ⟨rfl, rfl, rfl, rfl, rfl, rfl, rfl, rfl, rfl, rfl⟩
    ((view_dropKindAt u p l k).trans (by rw [hview]; exact viewKept_congr hset _ _)) hnote (List.append_nil _).symm
  rwa [List.append_nil] at hmore

theorem noteFor (h : s.workAt u p l x shown note tones) (m : LoopNo) (call : Option Slot) (content : List Byte) :
    s.workAt (u.noteFor p m call content) p l x shown (some ⟨u.tagLine call m, content⟩) tones := by
  obtain ⟨hl, hloops, hothers, hset, hview, hnote, htxq⟩ := id h
  have hmore := h.updPos (f := fun q => { q with note := some ⟨u.tagLine call m, content⟩ }) (y := x) (shown' := shown)
    (note' := some ⟨u.tagLine call m, content⟩) (more := []) (by rw [← hl]; simp only [State.loop, pos_updPos_self])
    (fun n _ => by simp only [State.loop, pos_updPos_self]) ⟨rfl, rfl, rfl, rfl, rfl, rfl, rfl, rfl, rfl, rfl⟩
    (by rw [← hview]; simp only [State.view, pos_updPos_self]) rfl (List.append_nil _).symm
  rwa [List.append_nil] at hmore

theorem errorTone (h : s.workAt u p l x shown note tones) :
    s.workAt (u.errorTone p) p l x shown note (tones ++ errorTones { s.pos p with txq := (s.pos p).txq ++ tones }) := by
  obtain ⟨hl, hloops, hothers, hset, hview, hnote, htxq⟩ := id h
  refine h.updPos ?_ (fun m hm => ?_) ?_ ?_ ?_ ?_
  · rw [← hl]; simp only [State.loop, pos_updPos_self, sound_eq]
  · simp only [State.loop, pos_updPos_self, sound_eq]
  · rw [sound_eq]; exact ⟨rfl, rfl, rfl, rfl, rfl, rfl, rfl, rfl, rfl, rfl⟩
  · rw [← hview]; simp only [State.view, pos_updPos_self, sound_eq]
  · rw [sound_eq, ← hnote]
  · rw [sound_eq, htxq]; rfl

/-- The first tones of an event. -/
theorem raiseLoop_first (h : s.workAt u p l x shown note []) (htick : u.tick = s.tick) (k : AlertKind) :
    s.workAt (u.raiseLoop p k l) p l x (s.viewRaised p k l shown) note (raisedTones (s.pos p) k) := by
  have hmore := h.raiseLoop htick k
  rw [List.append_nil] at hmore
  exact hmore

theorem errorTone_first (h : s.workAt u p l x shown note []) :
    s.workAt (u.errorTone p) p l x shown note (errorTones (s.pos p)) := by
  have hmore := h.errorTone
  rw [List.append_nil] at hmore
  exact hmore

end State.workAt

theorem errorTone_eq (s : State) (p : Pos) : s.errorTone p = s.errored p :=
  congrArg (s.updPos p) (funext fun q => sound_eq q .error)

theorem tagLine_congr {s t : State} {i : Slot} (hslot : t.slot i = s.slot i) (htenants : t.tenants = s.tenants) (l : LoopNo) :
    t.tagLine (some i) l = s.tagLine (some i) l := by
  have htenant (x : TenantNo) : t.tenant x = s.tenant x := by simp only [State.tenant, htenants]
  simp only [State.tagLine, State.tenantOf, State.record?, Option.bind_some, hslot, htenant]

end Sys2Proof.Machine
end

section
/-! PROOFS. Keys: when one is discarded, waits or is evaluated (R73, R74), and what makes one invalid (R75). -/

namespace Sys2Proof.Machine

/-! ### Operands -/

theorem loopOf_eq_some_iff (b : Byte) (l : LoopNo) : loopOf b = some l ↔ b.toNat = l.val + 1 := by
  unfold loopOf
  split
  · next h =>
    rw [Option.some.injEq, Fin.ext_iff]
    show b.toNat - 1 = l.val ↔ _
    omega
  · next h =>
    refine iff_of_false nofun fun hc => h ?_
    have := l.isLt
    omega

theorem loopOf_eq_none {b : Byte} (h : b = 0 ∨ 6 < b.toNat) : loopOf b = none := by
  refine dif_neg fun hc => ?_
  obtain rfl | h := h
  · exact absurd hc.1 (by decide)
  · omega

theorem keyWaits_iff (s : State) (p : Pos) (k : KeyMsg) : s.keyWaits p k = true ↔ s.waitsAt p k := by
  unfold State.keyWaits State.waitsAt
  rw [Bool.and_eq_true]
  refine and_congr_right fun _ => ?_
  cases hl : loopOf k.args.loop with
  | none =>
    refine iff_of_false (by simp) fun ⟨l, i, h, _⟩ => ?_
    rw [(loopOf_eq_some_iff _ l).2 h] at hl
    cases hl
  | some l =>
    have hloop {m : LoopNo} : k.args.loop.toNat = m.val + 1 ↔ m = l := by
      rw [← loopOf_eq_some_iff, hl, Option.some.injEq, eq_comm]
    dsimp only
    cases hi : (s.loop p l).slot? with
    | none =>
      refine iff_of_false (by simp) fun ⟨m, i, hm, hs, _⟩ => ?_
      rw [hloop.1 hm, hi] at hs
      cases hs
    | some i =>
      refine (inFlight_iff s i).trans ⟨fun h => ⟨l, i, hloop.2 rfl, hi, h⟩, fun ⟨m, j, hm, hs, h⟩ => ?_⟩
      rw [hloop.1 hm, hi] at hs
      cases hs
      exact h

theorem digits?_length {bs : List Byte} {ds : Digits} (h : Decode.digits? bs = some ds) : ds.length = bs.length := by
  induction bs generalizing ds with
  | nil => cases h; rfl
  | cons b bs ih =>
    unfold Decode.digits? at h
    split at h
    · next d ds' _ hds =>
      cases h
      rw [List.length_cons, List.length_cons, ih hds]
    · cases h

/-! ### A key row is a press of its key -/

theorem exec_keyCommand (s : State) (k : KeyKind) (p : Pos) (a : KeyArgs) :
    exec (keyCommand k p a) s = .next (s.press p ⟨k, a⟩) := by
  cases k <;> rfl

theorem press_unequipped {s : State} {p : Pos} (h : (s.pos p).state = .faulted ∨ (s.pos p).state = .absent) (k : KeyMsg) :
    s.press p k = s := by
  obtain h | h := h <;> rw [State.press, h]

theorem press_joins {s : State} {p : Pos} (h1 : (s.pos p).state ≠ .absent) (h2 : (s.pos p).state ≠ .faulted)
    (hlen : (s.pos p).keys.length < Config.keyPlaces) (k : KeyMsg) :
    s.press p k = ((s.updPos p fun q => { q with keys := q.keys ++ [k] }).drainKeys p).finishOffers := by
  unfold State.press
  split
  · next h => exact absurd h h1
  · next h => exact absurd h h2
  · exact if_pos hlen

/-- Where the head of a buffer waits, nothing of the buffer is evaluated (R74). -/
theorem drainKeys_waits {s : State} {p : Pos} {k : KeyMsg} {rest : List KeyMsg} (hk : (s.pos p).keys = k :: rest)
    (hw : s.keyWaits p k = true) : s.drainKeys p = s := by
  rw [State.drainKeys, hk]
  exact drain_waits hk hw _

theorem keyFree_not_waits {s : State} {p : Pos} {k : KeyKind} {a : KeyArgs} (h : s.keyFree p k a) :
    s.keyWaits p ⟨k, a⟩ = false := by
  refine Bool.eq_false_iff.2 fun hc => ?_
  obtain ⟨hk, l, i, hl, hs, e, he, hei⟩ := (keyWaits_iff s p ⟨k, a⟩).1 hc
  exact h.2 hk l i hl hs e he hei

/-- A key at a position that can take it at once is evaluated, and the event ends with offers. -/
theorem exec_keyFree {s : State} {p : Pos} {k : KeyKind} {a : KeyArgs} (h1 : (s.pos p).state ≠ .absent)
    (h2 : (s.pos p).state ≠ .faulted) (h : s.keyFree p k a) :
    exec (keyCommand k p a) s = .next (s.evalKey p ⟨k, a⟩).finishOffers := by
  rw [exec_keyCommand, press_now h1 h2 h.1 (keyFree_not_waits h)]

theorem staffed_of_not_closed {x : PosState} (h1 : x ≠ .absent) (h2 : x ≠ .faulted) (h3 : x ≠ .closed) : x.staffed = true := by
  match x with
  | .absent => exact absurd rfl h1
  | .faulted => exact absurd rfl h2
  | .closed => exact absurd rfl h3
  | .opened | .withdrawn => rfl

/-! ### Evaluation -/

theorem evalKey_bad {s : State} {p : Pos} {k : KeyKind} {a : KeyArgs} (h : ¬ (loopOk k a && argumentOk k a) = true) :
    s.evalKey p ⟨k, a⟩ = s.errored p := (if_neg h).trans (errorTone_eq s p)

theorem loopOk_position {k : KeyKind} {a : KeyArgs} (hk : KeyKind.isLoopKey k = false) : loopOk k a = true ↔ a.loop = 0 := by
  simp [loopOk, hk]

theorem loopOk_loopKey {k : KeyKind} {a : KeyArgs} (hk : KeyKind.isLoopKey k = true) :
    loopOk k a = true ↔ ∃ l : LoopNo, a.loop.toNat = l.val + 1 := by
  simp only [loopOk, hk, if_true, Option.isSome_iff_exists, loopOf_eq_some_iff]

theorem inRange {k : KeyKind} {a : KeyArgs} (hl : loopOk k a = true) (ha : argumentOk k a = true) :
    (loopOk k a && argumentOk k a) = true := by rw [hl, ha]; rfl

/-- A loop key in range acts on the loop it names, at a staffed position alone. -/
theorem evalKey_loopKey {s : State} {p : Pos} {k : KeyKind} {a : KeyArgs} {l : LoopNo} (hk : KeyKind.isLoopKey k = true)
    (ha : argumentOk k a = true) (hl : a.loop.toNat = l.val + 1) :
    s.evalKey p ⟨k, a⟩ = if (s.pos p).state.staffed then s.loopKey p k a l else s.errorTone p := by
  have hok := inRange ((loopOk_loopKey hk).2 ⟨l, hl⟩) ha
  match k, hk with
  | .loop, _ | .release, _ | .hold, _ | .park, _ | .extend, _ | .cancel, _ | .camp, _ | .clear, _ =>
    simp only [State.evalKey, if_pos hok, (loopOf_eq_some_iff _ _).2 hl]

/-- A loop key with no argument at a loop of a staffed position. -/
theorem evalKey_noArgument {s : State} {p : Pos} {k : KeyKind} {a : KeyArgs} {l : LoopNo} (hk : KeyKind.isLoopKey k = true)
    (hpark : k ≠ .park) (hext : k ≠ .extend) (hs : (s.pos p).state.staffed = true) (hc : a.count = 0)
    (hl : a.loop.toNat = l.val + 1) : s.evalKey p ⟨k, a⟩ = s.loopKey p k a l := by
  have ha : argumentOk k a = true := by
    have hno : noArgument a = true := beq_iff_eq.2 hc
    match k, hk with
    | .park, _ => exact absurd rfl hpark
    | .extend, _ => exact absurd rfl hext
    | .loop, _ | .release, _ | .hold, _ | .cancel, _ | .camp, _ | .clear, _ => exact hno
  rw [evalKey_loopKey hk ha hl, if_pos hs]

/-- The action of a position key in range. -/
def State.positionKey (s : State) (p : Pos) (k : KeyKind) (a : KeyArgs) : State :=
  match k with
  | .opening => s.keyOpen p
  | .closing => s.keyClose p
  | .withdraw => s.keyWithdraw p
  | .resume => s.keyResume p
  | .review => s.keyReview p
  | .answerNext => s.keyAnswerNext p
  | .pickup => s.keyPickup p a
  | _ => s.errorTone p

theorem evalKey_positionKey {s : State} {p : Pos} {k : KeyKind} {a : KeyArgs} (hk : KeyKind.isLoopKey k = false)
    (ha : argumentOk k a = true) (hl : a.loop = 0) : s.evalKey p ⟨k, a⟩ = s.positionKey p k a := by
  have hok := inRange ((loopOk_position hk).2 hl) ha
  match k, hk with
  | .opening, _ | .closing, _ | .withdraw, _ | .resume, _ | .review, _ | .answerNext, _ | .pickup, _ => exact if_pos hok

/-! ### Room on the camp-on table (R101) -/

theorem campRoom_iff (s : State) (ext : Digits) : s.campRoom ext = true ↔ s.hasRoom ext := by
  have hany (x : Digits) : (s.camp.any fun e => e.ext == x) = true ↔ ∃ e ∈ s.camp, e.ext = x := by simp
  have hmem : s.campOrders.contains ext = true ↔ ext ∈ s.campOrders := by simp
  have hcount : (s.campOrders.filter fun x => x == ext).length = s.campOrders.count ext := List.count_eq_length_filter.symm
  have hcalls : (s.camp.filter fun e => e.ext == ext) = s.camp.filter fun e => e.ext = ext :=
    List.filter_congr fun e _ => by rw [Bool.eq_iff_iff, beq_iff_eq, decide_eq_true_iff]
  unfold State.campRoom State.hasRoom
  simp only [hcount, hcalls]
  show _ ↔ (_ ∨ ext ∈ s.campOrders → _) ∧ (_ → ext ∉ s.campOrders → _)
  by_cases h : (∃ e ∈ s.camp, e.ext = ext) ∨ ext ∈ s.campOrders
  · rw [if_pos (by rwa [Bool.or_eq_true, hany, hmem])]
    refine decide_eq_true_iff.trans ⟨fun hlt => ⟨fun _ => hlt, fun hno hnot => ?_⟩, fun hroom => hroom.1 h⟩
    exact absurd h (not_or.2 ⟨hno, hnot⟩)
  · rw [if_neg (by rwa [Bool.or_eq_true, hany, hmem])]
    obtain ⟨hno, hnot⟩ := not_or.1 h
    have hothers : (s.campOrders.filter fun x => x != ext && !s.camp.any fun e => e.ext == x) =
        s.campOrders.filter fun x => ¬ ∃ e ∈ s.camp, e.ext = x := by
      refine List.filter_congr fun x hx => ?_
      have hne : x ≠ ext := fun hc => hnot (hc ▸ hx)
      rw [Bool.eq_iff_iff, Bool.and_eq_true, bne_iff_ne, Bool.not_eq_true', decide_eq_true_iff, ← hany, Bool.not_eq_true]
      exact and_iff_right hne
    rw [hothers]
    exact decide_eq_true_iff.trans ⟨fun hlt => ⟨fun hc => absurd hc h, fun _ _ => hlt⟩, fun hroom => hroom.2 hno hnot⟩

end Sys2Proof.Machine
end

section
/-! PROOFS. Position keys, the order of a loop key, and the frames of a console (R68, R73, R74, R79 to R82, R154, R164). -/

namespace Sys2Proof.Machine

theorem updPos_congr {s : State} {p : Pos} {f g : Position → Position} (h : f (s.pos p) = g (s.pos p)) :
    s.updPos p f = s.updPos p g := by
  simp only [State.updPos, h]

/-! ### Position keys -/

theorem keyFree_position {s : State} {p : Pos} {k : KeyKind} (hk : KeyKind.isLoopKey k = false) (h : (s.pos p).keys = [])
    (a : KeyArgs) : s.keyFree p k a := ⟨h, fun hc => absurd (hk.symm.trans hc) (by decide)⟩

theorem argumentOk_of_count {k : KeyKind} {a : KeyArgs} (hpickup : k ≠ .pickup) (hpark : k ≠ .park) (hext : k ≠ .extend)
    (h : a.count = 0) : argumentOk k a = true := by
  have hno : noArgument a = true := beq_iff_eq.2 h
  match k with
  | .pickup => exact absurd rfl hpickup
  | .park => exact absurd rfl hpark
  | .extend => exact absurd rfl hext
  | .opening | .closing | .withdraw | .resume | .review | .answerNext | .loop | .release | .hold | .cancel | .camp | .clear =>
    exact hno

/-- A position key with an empty buffer at a position that takes keys. -/
theorem exec_positionKey {s : State} {p : Pos} {k : KeyKind} {a : KeyArgs} (hk : KeyKind.isLoopKey k = false)
    (h1 : (s.pos p).state ≠ .absent) (h2 : (s.pos p).state ≠ .faulted) (hkeys : (s.pos p).keys = []) (hl : a.loop = 0)
    (ha : argumentOk k a = true) : exec (keyCommand k p a) s = .next (s.positionKey p k a).finishOffers := by
  rw [exec_keyFree h1 h2 (keyFree_position hk hkeys a), evalKey_positionKey hk ha hl]

theorem anyStaffed_iff (s : State) : s.anyStaffed = true ↔ ∃ p, (s.pos p).state = .opened ∨ (s.pos p).state = .withdrawn := by
  simp only [State.anyStaffed, List.any_eq_true, staffed_iff, mem_allPos, true_and]

theorem all_idle_iff (s : State) (p : Pos) : (allLoops.all fun l => s.loop p l == .idle) = true ↔ ∀ l, s.loop p l = .idle := by
  simp only [List.all_eq_true, mem_allLoops, true_implies, beq_iff_eq]

theorem keyClose_idle {s : State} {p : Pos} (hs : (s.pos p).state = .opened ∨ (s.pos p).state = .withdrawn)
    (hl : ∀ l, s.loop p l = .idle) : s.keyClose p =
      (let t := s.updPos p fun q => { q with state := .closed, alerts := [], toneRepeat := none, note := none }
      if ∃ x, x ≠ p ∧ ((s.pos x).state = .opened ∨ (s.pos x).state = .withdrawn) then t
      else { t with night := .nightPending, nightDelay := some (s.tick + s.timing.nightDelay) }) := by
  have hvalid : ((s.pos p).state.staffed && allLoops.all fun l => s.loop p l == .idle) = true := by
    rw [Bool.and_eq_true, staffed_iff, all_idle_iff]
    exact ⟨hs, hl⟩
  rw [State.keyClose, if_pos hvalid, State.nowUnstaffed]
  refine if_congr ((anyStaffed_iff _).trans ⟨fun ⟨x, hx⟩ => ?_, fun ⟨x, hne, hx⟩ => ⟨x, ?_⟩⟩) rfl rfl
  · have hne : x ≠ p := by
      rintro rfl
      rw [pos_updPos_self] at hx
      exact hx.elim nofun nofun
    rw [pos_updPos_ne _ _ _ _ hne.symm] at hx
    exact ⟨x, hne, hx⟩
  · rw [pos_updPos_ne _ _ _ _ hne.symm]
    exact hx

/-! ### Review (R164) -/

theorem alertText_eq_chars (k : AlertKind) : k.text = chars (match k with
    | .offer => "OFFER"
    | .holdRecall => "HOLD RECALL"
    | .destBusy => "DEST BUSY"
    | .destUnobtainable => "UNOBTAINABLE"
    | .destAnswered => "DEST ANSWERED"
    | .orderFailed => "ORDER FAILED"
    | .lockout => "LOCKOUT"
    | .callerGone => "CALLER GONE"
    | .queueThreshold => "QUEUE THRESHOLD"
    | .autoWithdrawn => "AUTO WITHDRAWN"
    | .exchangeDown => "EXCHANGE DOWN") := by
  cases k <;> decide

theorem reviewNote_eq (s : State) (p : Pos) (a : Alert) : s.reviewNote p a =
    ⟨(match a.loop with
      | some l => s.tagLine (s.loop p l).slot? l
      | none => List.replicate 20 0x20), a.kind.text⟩ := by
  unfold State.reviewNote
  cases a.loop with
  | none => simp only [padTo_nil]
  | some l => rfl

/-- The head alert off the list, with the deadline of the repeats (R160). -/
theorem dropHead_eq {q : Position} {a : Alert} {rest : List Alert} (h : q.alerts = a :: rest) :
    q.dropHead = { q with
      alerts := rest
      toneRepeat :=
        if (∃ y ∈ a :: rest, q.toneMask.getLsbD y.kind.bit = true) ∧ ∀ y ∈ rest, q.toneMask.getLsbD y.kind.bit = false
        then none else q.toneRepeat } := by
  have hend : (q.alerts.any q.sounding && !rest.any q.sounding) = true ↔
      (∃ y ∈ q.alerts, q.toneMask.getLsbD y.kind.bit = true) ∧ ∀ y ∈ rest, q.toneMask.getLsbD y.kind.bit = false := by
    rw [Bool.and_eq_true]
    refine and_congr ?_ ?_ <;> simp [Position.sounding, inMask]
  rw [Position.dropHead, h, List.tail_cons]
  simp only [← h]
  rw [if_congr hend rfl rfl]

/-! ### Keys that issue an order -/

/-- A loop key with no argument at a staffed position with an empty buffer, for the call of a settled record. -/
theorem exec_loopKey {s : State} {p : Pos} {k : KeyKind} {a : KeyArgs} {l : LoopNo} {i : Slot} {r : Record}
    (hk : KeyKind.isLoopKey k = true) (hat : s.keyAt p a l) (hr : s.settled i r) (hi : (s.loop p l).slot? = some i)
    (ha : argumentOk k a = true) : exec (keyCommand k p a) s = .next (s.loopKey p k a l).finishOffers := by
  obtain ⟨hs, hkeys, hl⟩ := hat
  have h1 : (s.pos p).state ≠ .absent := by rintro h; rw [h] at hs; exact hs.elim nofun nofun
  have h2 : (s.pos p).state ≠ .faulted := by rintro h; rw [h] at hs; exact hs.elim nofun nofun
  have hfree : s.keyFree p k a := by
    refine ⟨hkeys, fun _ m j hm hj => ?_⟩
    have hml : m = l := Fin.ext (by omega)
    rw [hml, hi, Option.some.injEq] at hj
    exact hj ▸ hr.2
  rw [exec_keyFree h1 h2 hfree, evalKey_loopKey hk ha hl, if_pos ((staffed_iff _).2 hs)]

theorem issue_fresh {s : State} {i : Slot} {r : Record} (hr : s.settled i r) (o : Order) (m : Mark) :
    s.issue i o m = { s with orders := s.orders ++ [Entry.fresh i r o m] } :=
  issue_settled ((record?_eq_some s i).2 hr.1) (inFlight_of_settled hr) o m

/-! ### KEY frames (R154) -/

theorem keyKind?_code (n : Fin 15) : Decode.keyKind? (BitVec.ofNat 8 (n.val + 1)) = some (allKeys.get n) := by
  revert n; decide

theorem keyKind?_eq_none {k : Byte} (h : k = 0 ∨ 15 < k.toNat) : Decode.keyKind? k = none := by
  revert k; decide

theorem exec_key_code (s : State) (p : Pos) (n : Fin 15) (l c d0 d1 d2 d3 d4 d5 : Byte) :
    exec (.key p 0x31 [BitVec.ofNat 8 (n.val + 1), l, c, d0, d1, d2, d3, d4, d5]) s =
      exec (keyCommand (allKeys.get n) p ⟨l, c, [d0, d1, d2, d3, d4, d5]⟩) s := by
  have hparse : Decode.parseKey 0x31 [BitVec.ofNat 8 (n.val + 1), l, c, d0, d1, d2, d3, d4, d5] =
      some ⟨allKeys.get n, ⟨l, c, [d0, d1, d2, d3, d4, d5]⟩⟩ := by
    rw [Decode.parseKey, if_pos (by decide)]
    simp only [keyKind?_code, Option.map_some]
  rw [exec_keyCommand]
  show execKey _ _ _ s = _
  rw [execKey, hparse]

theorem parseKey_eq_none {typ : Byte} {body : List Byte}
    (h : typ ≠ 0x31 ∨ body.length ≠ 9 ∨ ∃ k, body.head? = some k ∧ (k = 0 ∨ 15 < k.toNat)) : Decode.parseKey typ body = none := by
  unfold Decode.parseKey
  split
  · next ht =>
    split
    · obtain h | h | ⟨k, hk, hbad⟩ := h
      · exact absurd ht h
      · exact absurd rfl h
      · cases hk
        rw [keyKind?_eq_none hbad]
        rfl
    · rfl
  · rfl

end Sys2Proof.Machine

namespace Sys2Proof
open Sys2Proof.Machine

/-- Settles O51. -/
theorem keysAreDiscardedOrWait : Obligations.KeysAreDiscardedOrWait := by
  intro s p k a
  simp only [exec_keyCommand]
  refine ⟨fun h => by rw [press_unequipped h], fun h2 h1 hfull => ?full, fun h2 h1 first hfirst hlen hwait => ?waits⟩
  case full => rw [press_full h1 h2 hfull, errorTone_eq]
  case waits =>
    obtain ⟨m, hm, hk, l, i, hl, hi, he⟩ := hwait
    obtain ⟨rest, hrest⟩ : ∃ rest, first = m :: rest := by
      cases first with
      | nil => cases hm
      | cons x xs => cases hm; exact ⟨xs, rfl⟩
    have hroom : (s.pos p).keys.length < Config.keyPlaces := by
      rw [← hfirst, List.length_append] at hlen
      exact Nat.lt_of_succ_le hlen
    have hjoin : (s.updPos p fun q => { q with keys := q.keys ++ [⟨k, a⟩] }) = s.updPos p fun q => { q with keys := first } :=
      updPos_congr (by rw [hfirst])
    have hw : (s.updPos p fun q => { q with keys := first }).keyWaits p m = true := by
      rw [keyWaits_keys]
      exact (keyWaits_iff s p m).2 ⟨hk, l, i, hl, hi, he⟩
    rw [press_joins h1 h2 hroom, hjoin, drainKeys_waits (by rw [pos_updPos_self, hrest]) hw]

/-- Settles O53. -/
theorem openCloseWithdrawResume : Obligations.OpenCloseWithdrawResume := by
  intro s p a hkeys hl hc
  have pressed {k : KeyKind} (hk : KeyKind.isLoopKey k = false) (hp : k ≠ .pickup) (h1 : (s.pos p).state ≠ .absent)
      (h2 : (s.pos p).state ≠ .faulted) : exec (keyCommand k p a) s = .next (s.positionKey p k a).finishOffers :=
    exec_positionKey hk h1 h2 hkeys hl
      (argumentOk_of_count hp (by rintro rfl; cases hk) (by rintro rfl; cases hk) hc)
  refine ⟨fun h => ?opened, fun hs hidle => ?closed, fun h => ?withdrawn, fun h => ?resumed⟩
  case opened =>
    refine (pressed (k := .opening) rfl nofun (by simp [h]) (by simp [h])).trans ?_
    exact congrArg (fun t => Host.Outcome.next (State.finishOffers t)) (if_pos h)
  case closed =>
    have h1 : (s.pos p).state ≠ .absent := by rintro h; rw [h] at hs; exact hs.elim nofun nofun
    have h2 : (s.pos p).state ≠ .faulted := by rintro h; rw [h] at hs; exact hs.elim nofun nofun
    refine (pressed (k := .closing) rfl nofun h1 h2).trans ?_
    exact congrArg (fun t => Host.Outcome.next (State.finishOffers t)) (keyClose_idle hs hidle)
  case withdrawn =>
    refine (pressed (k := .withdraw) rfl nofun (by simp [h]) (by simp [h])).trans ?_
    exact congrArg (fun t => Host.Outcome.next (State.finishOffers t)) (if_pos h)
  case resumed =>
    refine (pressed (k := .resume) rfl nofun (by simp [h]) (by simp [h])).trans ?_
    exact congrArg (fun t => Host.Outcome.next (State.finishOffers t)) (if_pos h)

/-- Settles O54. -/
theorem reviewShowsTheHeadAlert : Obligations.ReviewShowsTheHeadAlert := by
  refine ⟨fun s p a x rest hkeys hl hc hs hx => ?review, fun o => ?parked, fun ext => ⟨?extended, ?camped⟩, by decide, by decide⟩
  case review =>
    have h1 : (s.pos p).state ≠ .absent := by rintro h; rw [h] at hs; exact hs.elim nofun nofun
    have h2 : (s.pos p).state ≠ .faulted := by rintro h; rw [h] at hs; exact hs.elim nofun nofun
    have hexec := exec_positionKey (k := .review) (a := a) rfl h1 h2 hkeys hl
      (argumentOk_of_count nofun nofun nofun hc)
    refine hexec.trans (congrArg (fun t => Host.Outcome.next (State.finishOffers t)) ?_)
    show s.keyReview p = _
    rw [State.keyReview, if_pos ((staffed_iff _).2 hs), hx]
    refine updPos_congr ?_
    rw [dropHead_eq hx, reviewNote_eq, alertText_eq_chars] <;> rfl
  case parked =>
    simp only [parkedText, digitChar_of_lt (show o.val / 10 < 10 by omega)]
    simp only [digitChar]
    exact congrArg (· ++ _) (by decide)
  case extended =>
    rw [extendedText, digitChars_eq_numeral]
    exact congrArg (· ++ _) (by decide)
  case camped =>
    rw [campedText, digitChars_eq_numeral]
    exact congrArg (· ++ _) (by decide)

/-- Settles O56. -/
theorem loopKeysIssueTheirOrder : Obligations.LoopKeysIssueTheirOrder := by
  intro s p a l i r hat hc hr issues
  have pressed {k : KeyKind} {o : Order} (hk : KeyKind.isLoopKey k = true) (hpark : k ≠ .park) (hext : k ≠ .extend)
      (hi : (s.loop p l).slot? = some i) (hkey : s.loopKey p k a l = s.issue i o .none) : issues (keyCommand k p a) o := by
    show exec _ s = _
    rw [exec_loopKey hk hat hr hi (argumentOk_of_count (by rintro rfl; cases hk) hpark hext hc), hkey, issue_fresh hr]
  refine ⟨fun h => ?hold, fun h => ?release, fun h => ?clear, fun h hvoice => ?retrieve⟩
  case hold =>
    exact pressed (k := .hold) rfl nofun nofun (by rw [h]; rfl) (by simp only [State.loopKey, State.keyHold, h])
  case release =>
    obtain h | h | h := h <;>
      exact pressed (k := .release) rfl nofun nofun (by rw [h]; rfl) (by simp only [State.loopKey, State.keyRelease, h])
  case clear =>
    exact pressed (k := .clear) rfl nofun nofun (by rw [h]; rfl) (by simp only [State.loopKey, State.keyClear, h])
  case retrieve =>
    obtain h | h := h <;>
      exact pressed (k := .loop) rfl nofun nofun (by rw [h]; rfl) (by simp only [State.loopKey, State.keyLoop, if_pos hvoice, h])

/-- Settles O50: a KEY frame is its key row, of which Open and Hold are instances. -/
theorem keyFrameIsItsKey : Obligations.KeyFrameIsItsKey := by
  refine ⟨fun s p n l c d0 d1 d2 d3 d4 d5 => ?row, fun s p six hsix hkeys => ?openAndHold, fun s p typ body h => ?discarded⟩
  case row =>
    rw [exec_key_code]
    exact ⟨rfl, _, exec_keyCommand _ _ _ _⟩
  case openAndHold =>
    match six, hsix with
    | [d0, d1, d2, d3, d4, d5], _ =>
      refine ⟨fun h => ?_, fun l i r hs ht hr => ?_⟩
      · exact (exec_key_code s p 0 0 0 d0 d1 d2 d3 d4 d5).trans
          ((openCloseWithdrawResume s p ⟨0, 0, [d0, d1, d2, d3, d4, d5]⟩ hkeys rfl rfl).1 h)
      · have hl : (BitVec.ofNat 8 (l.val + 1)).toNat = l.val + 1 := by simp only [BitVec.toNat_ofNat]; omega
        exact (exec_key_code s p 9 (BitVec.ofNat 8 (l.val + 1)) 0 d0 d1 d2 d3 d4 d5).trans
          ((loopKeysIssueTheirOrder s p ⟨BitVec.ofNat 8 (l.val + 1), 0, [d0, d1, d2, d3, d4, d5]⟩ l i r ⟨hs, hkeys, hl⟩ rfl hr).1 ht)
  case discarded =>
    show execKey p typ body s = _
    rw [execKey, parseKey_eq_none h]

end Sys2Proof
end

section
/-! PROOFS. Invalid keys (R75): arguments out of range, and each key where it is not valid. -/

namespace Sys2Proof.Machine

/-! ### Arguments out of range -/

theorem orbitOf_of_count {a : KeyArgs} (h : a.count ≠ 2) : orbitOf a = none := if_neg h

theorem orbitOf_of_digit {a : KeyArgs} (h : ∃ b ∈ a.digits.take a.count.toNat, 9 < b.toNat) : orbitOf a = none := by
  by_cases hc : a.count = 2
  · rw [hc] at h
    have hnone : Decode.digits? (a.digits.take 2) = none := Decode.digits?_eq_none h
    rw [orbitOf, if_pos hc, hnone]
  · exact orbitOf_of_count hc

/-- A first digit above 1 names no orbit (R75). -/
theorem orbitOf_of_head {a : KeyArgs} (h : ∃ b ∈ a.digits.head?, 1 < b.toNat) : orbitOf a = none := by
  obtain ⟨b, hb, hlarge⟩ := h
  obtain ⟨rest, hrest⟩ : ∃ rest, a.digits = b :: rest := List.head?_eq_some_iff.1 hb
  unfold orbitOf
  split
  · split
    · next x y hxy =>
      refine dif_neg ?_
      rw [hrest, List.take_succ_cons, Decode.digits?] at hxy
      split at hxy
      · next d ds hd _ =>
        cases hxy
        unfold Decode.digit? at hd
        split at hd
        · cases hd
          show ¬ b.toNat * 10 + y.val < 20
          omega
        · cases hd
      · cases hxy
    · rfl
  · rfl

theorem parkArgument_of_orbit {a : KeyArgs} (hc : a.count ≠ 0) (h : orbitOf a = none) : parkArgument a = none := by
  rw [parkArgument, if_neg hc, h]
  rfl

theorem extensionOf_of_count {a : KeyArgs} (h : a.count.toNat < 2 ∨ 6 < a.count.toNat) : extensionOf a = none :=
  if_neg (by omega)

theorem extensionOf_of_digit {a : KeyArgs} (h : ∃ b ∈ a.digits.take a.count.toNat, 9 < b.toNat) : extensionOf a = none := by
  unfold extensionOf
  rw [Decode.digits?_eq_none h]
  exact ite_self none

theorem count_ne_zero_of_digit {a : KeyArgs} (h : ∃ b ∈ a.digits.take a.count.toNat, 9 < b.toNat) : a.count ≠ 0 := by
  intro hc
  rw [hc] at h
  obtain ⟨b, hb, -⟩ := h
  cases hb

/-- The arguments that are out of range for their key (R75). -/
theorem argument_outOfRange {k : KeyKind} {a : KeyArgs}
    (h : (k ≠ .pickup ∧ k ≠ .park ∧ k ≠ .extend ∧ a.count ≠ 0) ∨ (k = .extend ∧ (a.count.toNat < 2 ∨ 6 < a.count.toNat)) ∨
      (k = .pickup ∧ a.count ≠ 2) ∨ (k = .park ∧ a.count ≠ 0 ∧ a.count ≠ 2) ∨
      ((k = .pickup ∨ k = .park ∨ k = .extend) ∧ ∃ b ∈ a.digits.take a.count.toNat, 9 < b.toNat) ∨
      ((k = .pickup ∨ k = .park) ∧ ∃ b ∈ a.digits.head?, 1 < b.toNat ∧ a.count = 2)) : argumentOk k a = false := by
  have pickup (h : orbitOf a = none) : argumentOk .pickup a = false := by rw [argumentOk, h]; rfl
  have park (hc : a.count ≠ 0) (h : orbitOf a = none) : argumentOk .park a = false := by
    rw [argumentOk, parkArgument_of_orbit hc h]; rfl
  have extend (h : extensionOf a = none) : argumentOk .extend a = false := by rw [argumentOk, h]; rfl
  obtain ⟨h1, h2, h3, hc⟩ | ⟨rfl, hc⟩ | ⟨rfl, hc⟩ | ⟨rfl, hc, hc'⟩ | ⟨hk, hd⟩ | ⟨hk, b, hb, hlarge, hc⟩ := h
  · have hno : noArgument a = false := beq_eq_false_iff_ne.2 hc
    match k with
    | .pickup => exact absurd rfl h1
    | .park => exact absurd rfl h2
    | .extend => exact absurd rfl h3
    | .opening | .closing | .withdraw | .resume | .review | .answerNext | .loop | .release | .hold | .cancel | .camp | .clear =>
      exact hno
  · exact extend (extensionOf_of_count hc)
  · exact pickup (orbitOf_of_count hc)
  · exact park hc (orbitOf_of_count hc')
  · obtain rfl | rfl | rfl := hk
    · exact pickup (orbitOf_of_digit hd)
    · exact park (count_ne_zero_of_digit hd) (orbitOf_of_digit hd)
    · exact extend (extensionOf_of_digit hd)
  · obtain rfl | rfl := hk
    · exact pickup (orbitOf_of_head ⟨b, hb, hlarge⟩)
    · exact park (by rw [hc]; decide) (orbitOf_of_head ⟨b, hb, hlarge⟩)

/-! ### Position keys that are not valid -/

section
variable {s : State} {p : Pos} {a : KeyArgs}

theorem lowestIdle_eq_none (h : ∀ l, s.loop p l ≠ .idle) : s.lowestIdle p = none :=
  List.find?_eq_none.2 fun l _ hc => h l (beq_iff_eq.1 hc)

theorem claimRequest_taken {i : Slot} {r : Record} (hr : s.slot i = .live r) (hc : r.claim ≠ none) (l : LoopNo) (how : Request) :
    s.claimRequest p l i how = s.errorTone p := by
  rw [State.claimRequest, (record?_eq_some s i).2 hr]
  exact if_pos (Option.isSome_iff_ne_none.2 hc)

theorem loopsQuiet_alerting {l : LoopNo} {i : Slot} (h : s.loop p l = .alerting i) : s.loopsQuiet p = false := by
  refine Bool.eq_false_iff.2 fun hc => ?_
  have := List.all_eq_true.1 hc l (mem_allLoops l)
  rw [h] at this
  cases this

theorem keyClose_invalid (h : (s.pos p).state.staffed = false ∨ ∃ l, s.loop p l ≠ .idle) : s.keyClose p = s.errorTone p := by
  refine if_neg fun hc => ?_
  rw [Bool.and_eq_true, all_idle_iff] at hc
  obtain h | ⟨l, hl⟩ := h
  · rw [h] at hc; cases hc.1
  · exact hl (hc.2 l)

theorem keyReview_invalid (h : (s.pos p).state.staffed = false ∨ (s.pos p).alerts = []) : s.keyReview p = s.errorTone p := by
  obtain h | h := h
  · exact if_neg (by rw [h]; decide)
  · rw [State.keyReview, h]
    exact ite_self _

theorem keyAnswerNext_invalid (h : (s.pos p).state.staffed = false ∨ s.voiceFree p = false ∨ (∃ l i, s.loop p l = .alerting i) ∨
    (∀ l, s.loop p l ≠ .idle) ∨ ∀ i ∈ s.queue, s.eligible p i = false) : s.keyAnswerNext p = s.errorTone p := by
  unfold State.keyAnswerNext
  split
  · next hvalid =>
    simp only [Bool.and_eq_true] at hvalid
    obtain ⟨⟨hs, hquiet⟩, hvoice⟩ := hvalid
    obtain h | h | ⟨l, i, h⟩ | h | h := h
    · rw [h] at hs; cases hs
    · rw [h] at hvoice; cases hvoice
    · rw [loopsQuiet_alerting h] at hquiet; cases hquiet
    · rw [lowestIdle_eq_none h]
    · have hnone : s.queue.filter (fun i => s.eligible p i) = [] :=
        List.filter_eq_nil_iff.2 fun i hi hc => by rw [h i hi] at hc; cases hc
      rw [hnone]
      cases s.lowestIdle p <;> rfl
  · rfl

theorem keyPickup_invalid (h : (s.pos p).state.staffed = false ∨ s.voiceFree p = false ∨ (∀ l, s.loop p l ≠ .idle) ∨
    ∀ o, orbitOf a = some o → s.orbit o = .empty ∨
      ∃ i r, (s.orbit o = .occupied i ∨ s.orbit o = .reserved i) ∧ s.slot i = .live r ∧ r.claim ≠ none) :
    s.keyPickup p a = s.errorTone p := by
  unfold State.keyPickup
  split
  · next hvalid =>
    simp only [Bool.and_eq_true] at hvalid
    obtain ⟨hs, hvoice⟩ := hvalid
    split
    · next l i hl hi =>
      obtain h | h | h | h := h
      · rw [h] at hs; cases hs
      · rw [h] at hvoice; cases hvoice
      · rw [lowestIdle_eq_none h] at hl; cases hl
      · obtain ⟨o, ho, hoi⟩ := Option.bind_eq_some_iff.1 hi
        obtain hempty | ⟨j, r, hj, hr, hc⟩ := h o ho
        · rw [hempty] at hoi; cases hoi
        · have hij : j = i := by
            obtain hj | hj := hj <;> rw [hj] at hoi <;> exact Option.some.inj hoi
          exact claimRequest_taken (hij ▸ hr) hc l .pickup
    · rfl
  · rfl

/-- A position key where it is not valid (R68, R57, R76, R164). -/
theorem positionKey_closed {k : KeyKind} (hk : k ≠ .opening) (h : (s.pos p).state = .closed) :
    s.positionKey p k a = s.errorTone p := by
  have hs : (s.pos p).state.staffed = false := by rw [h]; rfl
  match k with
  | .opening => exact absurd rfl hk
  | .closing => exact keyClose_invalid (.inl hs)
  | .withdraw => exact if_neg (by rw [h]; decide)
  | .resume => exact if_neg (by rw [h]; decide)
  | .review => exact keyReview_invalid (.inl hs)
  | .answerNext => exact keyAnswerNext_invalid (.inl hs)
  | .pickup => exact keyPickup_invalid (.inl hs)
  | .loop | .release | .hold | .park | .extend | .cancel | .camp | .clear => rfl

/-! ### Loop keys that are not valid -/

variable {l : LoopNo}

theorem keyLoop_invalid (h : s.voiceFree p = false ∨ ((∀ i, s.loop p l ≠ .held i) ∧ (∀ i, s.loop p l ≠ .recalling i) ∧
    ∀ i, s.loop p l = .alerting i → ∃ r, s.slot i = .live r ∧ r.claim ≠ none)) : s.keyLoop p l = s.errorTone p := by
  unfold State.keyLoop
  split
  · next hvoice =>
    obtain h | ⟨hheld, hrecalling, halerting⟩ := h
    · rw [h] at hvoice; cases hvoice
    · split
      · next i hi =>
        obtain ⟨r, hr, hc⟩ := halerting i hi
        exact claimRequest_taken hr hc l .answer
      · next i hi => exact absurd hi (hheld i)
      · next i hi => exact absurd hi (hrecalling i)
      · rfl
  · rfl

theorem keyHold_invalid (h : ∀ i, s.loop p l ≠ .talk i) : s.keyHold p l = s.errorTone p := by
  unfold State.keyHold
  split
  · next i hi => exact absurd hi (h i)
  · rfl

theorem keyExtend_invalid (h : ∀ i, s.loop p l ≠ .talk i) : s.keyExtend p l a = s.errorTone p := by
  unfold State.keyExtend
  split
  · next i ext hi _ => exact absurd hi (h i)
  · rfl

theorem keyClear_invalid (h : ∀ i, s.loop p l ≠ .locked i) : s.keyClear p l = s.errorTone p := by
  unfold State.keyClear
  split
  · next i hi => exact absurd hi (h i)
  · rfl

theorem keyPark_invalid (h : ∀ i, s.loop p l = .talk i ∨ s.loop p l = .held i → s.parkOrbit a = none) :
    s.keyPark p l a = s.errorTone p := by
  unfold State.keyPark
  split
  · next o i ho hi => rw [h i (.inl hi)] at ho; cases ho
  · next o i ho hi => rw [h i (.inr hi)] at ho; cases ho
  · rfl

theorem parkOrbit_eq_none (h : ∀ o, parkArgument a = some (some o) → s.orbit o ≠ .empty)
    (h0 : a.count = 0 → ∀ o, s.orbit o ≠ .empty) : s.parkOrbit a = none := by
  unfold State.parkOrbit
  split
  · next o ho => exact if_neg (h o ho)
  · next hnone =>
    have hc : a.count = 0 := by
      by_contra hc
      rw [parkArgument, if_neg hc] at hnone
      cases ho : orbitOf a <;> rw [ho] at hnone <;> cases hnone
    exact List.find?_eq_none.2 fun o _ hc' => h0 hc o (beq_iff_eq.1 hc')
  · rfl

theorem stepOf_live {i : Slot} {r : Record} (h : s.slot i = .live r) : s.stepOf i = r.step := by
  rw [State.stepOf, (record?_eq_some s i).2 h]

theorem stepOf_ne {i : Slot} {n : Fin 7} (hn : n ≠ 0) (h : ∀ r, s.slot i = .live r → r.step ≠ n) : s.stepOf i ≠ n := by
  unfold State.stepOf
  split
  · next r hr => exact h r ((record?_eq_some s i).1 hr)
  · exact hn.symm

theorem keyRelease_invalid (htalk : ∀ i, s.loop p l ≠ .talk i) (hheld : ∀ i, s.loop p l ≠ .held i)
    (hrecalling : ∀ i, s.loop p l ≠ .recalling i)
    (hext : ∀ i, s.loop p l = .extend i → ∀ r, s.slot i = .live r → r.step ≠ 3 ∧ r.step ≠ 5) :
    s.keyRelease p l = s.errorTone p := by
  unfold State.keyRelease
  split
  · next i hi => exact absurd hi (htalk i)
  · next i hi => exact absurd hi (hheld i)
  · next i hi => exact absurd hi (hrecalling i)
  · next i hi =>
    rw [if_neg (stepOf_ne (by decide) fun r hr => (hext i hi r hr).1), if_neg (stepOf_ne (by decide) fun r hr => (hext i hi r hr).2)]
  · rfl

theorem keyCancel_invalid
    (h : ∀ i, s.loop p l = .extend i → ∀ r, s.slot i = .live r → r.step ≠ 3 ∧ r.step ≠ 4 ∧ r.step ≠ 5) :
    s.keyCancel p l = s.errorTone p := by
  unfold State.keyCancel
  split
  · next i hi =>
    have h3 := stepOf_ne (s := s) (i := i) (n := 3) (by decide) fun r hr => (h i hi r hr).1
    have h4 := stepOf_ne (s := s) (i := i) (n := 4) (by decide) fun r hr => (h i hi r hr).2.1
    have h5 := stepOf_ne (s := s) (i := i) (n := 5) (by decide) fun r hr => (h i hi r hr).2.2
    rw [if_neg (not_or.2 ⟨h3, h5⟩), if_neg h4]
  · rfl

theorem keyCamp_invalid
    (h : ∀ i, s.loop p l = .extend i → ∀ r, s.slot i = .live r → r.step ≠ 4 ∨ ∀ ext, r.dest = some ext → ¬ s.hasRoom ext) :
    s.keyCamp p l = s.errorTone p := by
  unfold State.keyCamp
  split
  · next i hi =>
    split
    · next ext hext =>
      obtain ⟨r, hr, hdest⟩ := Option.bind_eq_some_iff.1 hext
      have hr := (record?_eq_some s i).1 hr
      refine if_neg fun hc => ?_
      obtain h | h := h i hi r hr
      · exact h ((stepOf_live hr).symm.trans hc.1)
      · exact h ext hdest ((campRoom_iff s ext).1 hc.2)
    · rfl
  · rfl

end

end Sys2Proof.Machine

namespace Sys2Proof
open Sys2Proof.Machine

/-- Settles O52: an argument or loop byte out of range fails the range check, and every other case is a key where it is not
valid. -/
theorem invalidKeysGiveTheErrorTone : Obligations.InvalidKeysGiveTheErrorTone := by
  intro s p k a h2 h1 hfree h
  rw [exec_keyFree h1 h2 hfree]
  refine congrArg (fun t => Host.Outcome.next (State.finishOffers t)) ?_
  by_cases hok : (loopOk k a && argumentOk k a) = true
  swap
  · exact evalKey_bad hok
  rw [Bool.and_eq_true] at hok
  obtain ⟨hl, ha⟩ := hok
  rw [← errorTone_eq]
  have onPosition {k' : KeyKind} (hk' : k = k') (hk : KeyKind.isLoopKey k' = false) (h : s.positionKey p k' a = s.errorTone p) :
      s.evalKey p ⟨k, a⟩ = s.errorTone p := by
    subst hk'
    rw [evalKey_positionKey hk ha ((loopOk_position hk).1 hl), h]
  have onLoop (hk : KeyKind.isLoopKey k = true) (h : ∀ l : LoopNo, a.loop.toNat = l.val + 1 → (s.pos p).state.staffed = true →
      s.loopKey p k a l = s.errorTone p) : s.evalKey p ⟨k, a⟩ = s.errorTone p := by
    obtain ⟨l, hl⟩ := (loopOk_loopKey hk).1 hl
    rw [evalKey_loopKey hk ha hl]
    split
    · next hs => exact h l hl hs
    · rfl
  have outOfRange (h : argumentOk k a = false) : s.evalKey p ⟨k, a⟩ = s.errorTone p := absurd (h.symm.trans ha) (by decide)
  obtain ⟨hk, h⟩ | ⟨hk, h⟩ | h | h | h | h | h | h | ⟨h, hk⟩ | ⟨h, hk⟩ | ⟨h, hk⟩ | ⟨h, hk⟩ | ⟨hk, h⟩ | ⟨hk, h⟩ | ⟨hk, h⟩ |
    ⟨hk, h⟩ | ⟨hk, h⟩ | ⟨l, hal, h⟩ := h
  · obtain ⟨l, hl⟩ := (loopOk_loopKey hk).1 hl
    have := l.isLt
    obtain h | h := h
    · rw [h] at hl; exact absurd hl (Nat.succ_ne_zero _).symm
    · omega
  · exact absurd ((loopOk_position hk).1 hl) h
  · exact outOfRange (argument_outOfRange (.inl h))
  · exact outOfRange (argument_outOfRange (.inr (.inl h)))
  · exact outOfRange (argument_outOfRange (.inr (.inr (.inl h))))
  · exact outOfRange (argument_outOfRange (.inr (.inr (.inr (.inl h)))))
  · exact outOfRange (argument_outOfRange (.inr (.inr (.inr (.inr (.inl h))))))
  · exact outOfRange (argument_outOfRange (.inr (.inr (.inr (.inr (.inr h))))))
  · cases hkey : KeyKind.isLoopKey k with
    | false => exact onPosition rfl hkey (positionKey_closed hk h)
    | true => exact onLoop hkey fun l _ hs => absurd hs (by rw [h]; decide)
  · exact onPosition hk rfl (if_neg h)
  · exact onPosition hk rfl (if_neg h)
  · exact onPosition hk rfl (if_neg h)
  · exact onPosition hk rfl (keyClose_invalid (.inr h))
  · exact onPosition hk rfl (keyReview_invalid (.inr h))
  · obtain hk | hk | hk := hk
    · exact onPosition hk rfl (keyAnswerNext_invalid (.inr (.inl h)))
    · exact onPosition hk rfl (keyPickup_invalid (.inr (.inl h)))
    · subst hk
      exact onLoop rfl fun l _ _ => keyLoop_invalid (.inl h)
  · exact onPosition hk rfl (keyAnswerNext_invalid (.inr (.inr h)))
  · exact onPosition hk rfl (keyPickup_invalid (.inr (.inr h)))
  · have named (m : LoopNo) (hm : a.loop.toNat = m.val + 1) : m = l := Fin.ext (by omega)
    cases k with
    | opening | closing | withdraw | resume | review | answerNext | pickup => exact absurd h id
    | loop =>
      refine onLoop rfl fun m hm _ => keyLoop_invalid (.inr ⟨fun i hi => ?_, fun i hi => ?_, fun i hi => ?_⟩) <;>
        rw [named m hm] at hi <;> rw [hi] at h <;> exact h
    | hold =>
      refine onLoop rfl fun m hm _ => keyHold_invalid fun i hi => ?_
      rw [named m hm] at hi; rw [hi] at h; exact h
    | extend =>
      refine onLoop rfl fun m hm _ => keyExtend_invalid fun i hi => ?_
      rw [named m hm] at hi; rw [hi] at h; exact h
    | clear =>
      refine onLoop rfl fun m hm _ => keyClear_invalid fun i hi => ?_
      rw [named m hm] at hi; rw [hi] at h; exact h
    | park =>
      refine onLoop rfl fun m hm _ => keyPark_invalid fun i hi => ?_
      obtain hi | hi := hi <;> rw [named m hm] at hi <;> rw [hi] at h <;> exact parkOrbit_eq_none h.1 h.2
    | release =>
      refine onLoop rfl fun m hm _ => keyRelease_invalid (fun i hi => ?_) (fun i hi => ?_) (fun i hi => ?_) (fun i hi => ?_) <;>
        rw [named m hm] at hi <;> rw [hi] at h <;> exact h
    | cancel =>
      refine onLoop rfl fun m hm _ => keyCancel_invalid fun i hi => ?_
      rw [named m hm] at hi; rw [hi] at h; exact h
    | camp =>
      refine onLoop rfl fun m hm _ => keyCamp_invalid fun i hi => ?_
      rw [named m hm] at hi; rw [hi] at h; exact h

end Sys2Proof
end

section
/-! PROOFS. Keys that claim a call, park it, or step the extend sequence (R19 to R21, R76, R77, R81, R93, R98 to R103). -/

namespace Sys2Proof.Machine

/-! ### The first of its kind -/

theorem find?_finRange_first {n : Nat} {f : Fin n → Bool} {i : Fin n} (hi : f i = true) (h : ∀ j < i, f j = false) :
    (List.finRange n).find? f = some i := by
  refine List.find?_eq_some_iff_getElem.2 ⟨hi, i.val, by simp, by simp, fun j hj => ?_⟩
  rw [List.getElem_finRange]
  simpa using h ⟨j, Nat.lt_trans hj i.isLt⟩ hj

theorem lowestIdle_eq {s : State} {p : Pos} {l : LoopNo} (hl : s.loop p l = .idle) (h : ∀ m < l, s.loop p m ≠ .idle) :
    s.lowestIdle p = some l :=
  find?_finRange_first (beq_iff_eq.2 hl) fun m hm => beq_eq_false_iff_ne.2 (h m hm)

theorem loopsQuiet_of_voiceFree {s : State} {p : Pos} (hv : s.voiceFree p = true) (ha : ∀ m j, s.loop p m ≠ .alerting j) :
    s.loopsQuiet p = true := by
  refine (loopsQuiet_iff s p).2 fun m => ⟨?_, Bool.eq_false_iff.2 fun hc => ?_⟩
  · have hsilent := (voiceFree_iff s p).1 hv m
    rw [State.holdsVoice, Bool.or_eq_false_iff] at hsilent
    exact hsilent.1
  · obtain ⟨j, hj⟩ := (isAlerting_iff _).1 hc
    exact ha m j hj

theorem not_absent_of_staffed {x : PosState} (h : x = .opened ∨ x = .withdrawn) : x ≠ .absent := by
  rintro rfl; exact h.elim nofun nofun

theorem not_faulted_of_staffed {x : PosState} (h : x = .opened ∨ x = .withdrawn) : x ≠ .faulted := by
  rintro rfl; exact h.elim nofun nofun

/-! ### Claims (R19, R20) -/

/-- A loop becomes CONNECTING for a record that changes with it. -/
theorem workAt_connecting (s : State) (p : Pos) (l : LoopNo) (i : Slot) (x : SlotState) :
    s.workAt ((s.setSlot i x).loopConnecting p l i) p l (.connecting i) (s.viewWithoutKind p l .offer (s.view p)) none [] :=
  ((State.workAt.refl s p l).of_positions (v := s.setSlot i x) rfl).loopConnecting i

/-- The grant, exactly: the record changed, the loop CONNECTING, and CONNECT at the tail of the order list. -/
theorem grant_settled {s : State} {i : Slot} {r : Record} (hr : s.settled i r) (p : Pos) (l : LoopNo) :
    s.grant p l i = { (s.setSlot i (.live (if r.mark = some (p, l)
        then { r with claim := some ⟨p, l, true⟩, mark := none, timer := none, held := none }
        else { r with claim := some ⟨p, l, true⟩ }))).loopConnecting p l i with
      orders := s.orders ++ [Entry.fresh i r (.connect p l) .none] } := by
  unfold State.grant
  rw [updRec_slots_of_live hr.1]
  have hmark : (if r.mark = some (p, l) then { { r with claim := some ⟨p, l, true⟩ } with mark := none }.disarm
      else { r with claim := some ⟨p, l, true⟩ }) = if r.mark = some (p, l)
        then { r with claim := some ⟨p, l, true⟩, mark := none, timer := none, held := none }
        else { r with claim := some ⟨p, l, true⟩ } := rfl
  rw [hmark]
  generalize hr' : (if r.mark = some (p, l) then { r with claim := some ⟨p, l, true⟩, mark := none, timer := none, held := none }
        else { r with claim := some ⟨p, l, true⟩ } : Record) = r'
  have href : r'.ref = r.ref := by rw [← hr']; split <;> rfl
  have hlive : ((s.setSlot i (.live r')).loopConnecting p l i).slot i = .live r' := slot_setSlot_self s i _
  have hsettled : ((s.setSlot i (.live r')).loopConnecting p l i).settled i r' := ⟨hlive, hr.2⟩
  have hfresh : Entry.fresh i r' (.connect p l) .none = Entry.fresh i r (.connect p l) .none := by
    rw [Entry.fresh, Entry.fresh, href]
  exact (issue_fresh hsettled _ _).trans (by rw [hfresh]; rfl)

theorem claimRequest_granted {s : State} {i : Slot} {r : Record} (hr : s.settled i r) (hc : r.claim = none) {how : Request}
    (hpick : how.pickable r.loc = true) (p : Pos) (l : LoopNo) : s.claimRequest p l i how = s.grant p l i := by
  have hidle := inFlight_of_settled hr
  simp only [State.claimRequest, (record?_eq_some s i).2 hr.1, hc, hidle, hpick, Option.isSome_none, Bool.false_eq_true, if_false,
    if_true]

theorem claimRequest_waiting {s : State} {i : Slot} {r : Record} (hr : s.slot i = .live r) (hc : r.claim = none)
    (hf : s.inFlight i = true) (p : Pos) (l : LoopNo) (how : Request) :
    s.claimRequest p l i how = (s.setSlot i (.live { r with claim := some ⟨p, l, false⟩ })).loopConnecting p l i := by
  simp only [State.claimRequest, (record?_eq_some s i).2 hr, hc, hf, Option.isSome_none, Bool.false_eq_true, if_false, if_true]
  rw [updRec_slots_of_live hr]

theorem keyPickup_eq {s : State} {p : Pos} {a : KeyArgs} {l : LoopNo} {o : OrbitNo} {i : Slot}
    (hs : (s.pos p).state = .opened ∨ (s.pos p).state = .withdrawn) (hv : s.voiceFree p = true) (ho : orbitOf a = some o)
    (hi : s.orbit o = .occupied i ∨ s.orbit o = .reserved i) (hl : s.loop p l = .idle) (hlow : ∀ m < l, s.loop p m ≠ .idle) :
    s.keyPickup p a = s.claimRequest p l i .pickup := by
  have hslot : (orbitOf a).bind (fun o => (s.orbit o).slot?) = some i := by
    rw [ho, Option.bind_some]
    obtain hi | hi := hi <;> rw [hi] <;> rfl
  simp only [State.keyPickup, (staffed_iff _).2 hs, hv, Bool.and_self, if_true, lowestIdle_eq hl hlow, hslot]

/-! ### Extend (R93) -/

theorem extensionOf_eq {a : KeyArgs} {ext : Digits} {pad : List Byte} (hlow : 2 ≤ ext.length) (hhigh : ext.length ≤ 6)
    (hc : a.count = BitVec.ofNat 8 ext.length) (hd : a.digits = ext.map (fun d : Fin 10 => BitVec.ofNat 8 d.val) ++ pad) :
    extensionOf a = some ext := by
  have hcount : a.count.toNat = ext.length := by rw [hc, BitVec.toNat_ofNat]; omega
  rw [extensionOf, hcount, if_pos ⟨hlow, hhigh⟩, hd, List.take_left' (List.length_map _), Decode.digits?_map_ofNat]
  exact if_pos rfl

theorem setStep_live {s : State} {i : Slot} {r : Record} (h : s.slot i = .live r) (n : Fin 7) :
    s.setStep i n = s.setSlot i (.live { r with step := n }) := updRec_slots_of_live h _

/-- An order issued for a settled record whose step changes with it. -/
theorem issue_setStep {s : State} {i : Slot} {r : Record} (hr : s.settled i r) (o : Order) (m : Mark) (n : Fin 7) :
    (s.issue i o m).setStep i n = { s with
      slots := s.slots.set i (.live { r with step := n }), orders := s.orders ++ [Entry.fresh i r o m] } := by
  have hlive : State.slot { s with orders := s.orders ++ [Entry.fresh i r o m] } i = .live r := hr.1
  rw [issue_fresh hr, setStep_live hlive]
  rfl

end Sys2Proof.Machine

namespace Sys2Proof
open Sys2Proof.Machine

/-- Settles O55: each of the three keys comes to a claim request, which is granted, waits or is too late (R19). -/
theorem answerAndPickupClaimTheCall : Obligations.AnswerAndPickupClaimTheCall := by
  refine ⟨fun s p a l i r hs hkeys hv hr hc => ?atOnce, fun s p a l o i r hs hkeys hv hr hf hal ho hoi hl hlow => ?later⟩
  case atOnce =>
    intro granted
    have h1 := not_absent_of_staffed hs
    have h2 := not_faulted_of_staffed hs
    have connected (r' : Record) :
        granted r' { (s.setSlot i (.live r')).loopConnecting p l i with
          orders := s.orders ++ [Entry.fresh i r (.connect p l) .none] } :=
      ⟨(workAt_connecting s p l i _).of_positions rfl, rfl⟩
    refine ⟨fun hal hcount hl hlow hquiet hbest => ?answerNext, fun hal hcount hl hloc hmark => ?loop,
      fun o hal ho hoi hloc hmark hl hlow => ?pickup⟩
    case answerNext =>
      obtain ⟨r', hr', hloc, hmark, -⟩ := eligible_record (List.mem_filter.1 (bestOf_mem hbest)).2
      rw [(record?_eq_some s i).2 hr.1, Option.some.injEq] at hr'
      subst hr'
      have hkey : s.positionKey p .answerNext a = s.grant p l i := by
        show s.keyAnswerNext p = _
        have hvalid : ((s.pos p).state.staffed && s.loopsQuiet p && s.voiceFree p) = true := by
          rw [(staffed_iff _).2 hs, loopsQuiet_of_voiceFree hv hquiet, hv]; rfl
        simp only [State.keyAnswerNext, if_pos hvalid, lowestIdle_eq hl hlow, hbest]
        exact claimRequest_granted hr hc (by rw [hloc]; rfl) p l
      refine ⟨_, (exec_positionKey (k := .answerNext) rfl h1 h2 hkeys hal (argumentOk_of_count nofun nofun nofun hcount)).trans
        (by rw [hkey, grant_settled hr]), ?_⟩
      rw [if_neg (by rw [hmark]; nofun)]
      exact connected _
    case loop =>
      have hkey : s.loopKey p .loop a l = s.grant p l i := by
        show s.keyLoop p l = _
        simp only [State.keyLoop, if_pos hv, hl]
        exact claimRequest_granted hr hc (by rw [hloc]; rfl) p l
      refine ⟨_, (exec_loopKey (k := .loop) rfl ⟨hs, hkeys, hal⟩ hr (by rw [hl]; rfl)
        (argumentOk_of_count nofun nofun nofun hcount)).trans (by rw [hkey, grant_settled hr]), ?_⟩
      rw [if_pos hmark]
      exact connected _
    case pickup =>
      have hkey : s.positionKey p .pickup a = s.grant p l i :=
        (keyPickup_eq hs hv ho (.inl hoi) hl hlow).trans (claimRequest_granted hr hc (by rw [hloc]; rfl) p l)
      refine ⟨_, (exec_positionKey (k := .pickup) rfl h1 h2 hkeys hal (by rw [argumentOk, ho]; rfl)).trans
        (by rw [hkey, grant_settled hr]), ?_⟩
      rw [if_neg (by rw [hmark]; nofun)]
      exact connected _
  case later =>
    have pressed : exec (.pickupKey p a) s = .next (s.claimRequest p l i .pickup).finishOffers := by
      refine (exec_positionKey (k := .pickup) rfl (not_absent_of_staffed hs) (not_faulted_of_staffed hs) hkeys hal
        (by rw [argumentOk, ho]; rfl)).trans ?_
      rw [← keyPickup_eq hs hv ho hoi hl hlow]
      rfl
    refine ⟨fun hc => ?_, fun hc => ?_⟩
    · rw [pressed, claimRequest_waiting hr hc ((inFlight_iff s i).2 hf)]
      exact ⟨_, rfl, workAt_connecting s p l i _, rfl⟩
    · rw [pressed, claimRequest_taken hr hc, errorTone_eq]

/-- Settles O57. -/
theorem parkTakesAnOrbit : Obligations.ParkTakesAnOrbit := by
  intro s p a l o i r hat hr hempty hnamed
  have hcount2 (ho : orbitOf a = some o) : a.count = 2 := by
    by_contra hc
    rw [orbitOf_of_count hc] at ho
    cases ho
  have hpark : s.parkOrbit a = some o ∧ argumentOk .park a = true := by
    obtain ⟨hc, hlow⟩ | ho := hnamed
    · have harg : parkArgument a = some none := if_pos hc
      rw [State.parkOrbit, argumentOk, harg]
      exact ⟨find?_finRange_first (beq_iff_eq.2 hempty) fun x hx => beq_eq_false_iff_ne.2 (hlow x hx), rfl⟩
    · have harg : parkArgument a = some (some o) := by
        rw [parkArgument, if_neg (by rw [hcount2 ho]; decide), ho]
        rfl
      rw [State.parkOrbit, argumentOk, harg]
      exact ⟨if_pos hempty, rfl⟩
  obtain ⟨horbit, harg⟩ := hpark
  refine ⟨fun ht => ?talk, fun hh hloc => ?held⟩
  case talk =>
    refine (exec_loopKey (k := .park) rfl hat hr (by rw [ht]; rfl) harg).trans ?_
    show Host.Outcome.next (State.finishOffers (s.keyPark p l a)) = _
    simp only [State.keyPark, horbit, ht]
    rw [issue_fresh (s := s.setOrbit o (.reserved i)) hr]
    rfl
  case held =>
    have hkey : s.loopKey p .park a l =
        (((s.noteFor p l (some i) (parkedText o)).loopIdle p l).setOrbit o (.occupied i)).setSlot i (.live { r with
          loc := .parked o, owner := some p, held := none
          timer := some ⟨.parkRecall, s.tick + s.timing.parkRecall, false⟩ }) := by
      show s.keyPark p l a = _
      simp only [State.keyPark, horbit, hh]
      have hnoted : (s.noteFor p l (some i) (parkedText o)).slot i = .live r := hr.1
      have hleft : ((s.noteFor p l (some i) (parkedText o)).loopIdle p l).slot i = .live r := hr.1
      rw [leaveHolder_loop ((record?_eq_some _ i).2 hnoted) hloc, placeInOrbit_eq hleft]
      rfl
    refine ⟨_, (exec_loopKey (k := .park) rfl hat hr (by rw [hh]; rfl) harg).trans (by rw [hkey]), ?_, rfl⟩
    exact (((State.workAt.refl s p l).noteFor l (some i) (parkedText o)).loopIdle).of_positions rfl

/-- Settles O58. -/
theorem extendKeysStepTheSequence : Obligations.ExtendKeysStepTheSequence := by
  intro s p a l i r hat hr
  refine ⟨fun ext pad ht hlow hhigh hc hd => ?extend, fun he hc => ?steps⟩
  case extend =>
    have hext := extensionOf_eq hlow hhigh hc hd
    have hkey : s.loopKey p .extend a l = { (s.setLoop p l (.extend i)).setSlot i (.live { r with step := 1, dest := some ext }) with
        orders := s.orders ++ [Entry.fresh i r .split .none] } := by
      show s.keyExtend p l a = _
      simp only [State.keyExtend, ht, hext]
      have hlive : (s.setLoop p l (.extend i)).slot i = .live r := hr.1
      rw [updRec_slots_of_live hlive,
        issue_fresh (s := (s.setLoop p l (.extend i)).setSlot i (.live { r with step := 1, dest := some ext }))
          ⟨slot_setSlot_self _ _ _, hr.2⟩]
      rfl
    refine ⟨_, (exec_loopKey (k := .extend) rfl hat hr (by rw [ht]; rfl) (by rw [argumentOk, hext]; rfl)).trans
      (by rw [hkey]), ?_, rfl⟩
    exact ((State.workAt.refl s p l).setLoop (.extend i)).of_positions rfl
  case steps =>
    intro issues
    have hstep : s.stepOf i = r.step := stepOf_live hr.1
    have pressed {k : KeyKind} {o : Order} {m : Mark} (hk : KeyKind.isLoopKey k = true) (hpark : k ≠ .park) (hext : k ≠ .extend)
        (hkey : s.loopKey p k a l = (s.issue i o m).setStep i 6) : issues (keyCommand k p a) o m := by
      show exec _ s = _
      rw [exec_loopKey hk hat hr (by rw [he]; rfl) (argumentOk_of_count (by rintro rfl; cases hk) hpark hext hc), hkey,
        issue_setStep hr]
    refine ⟨fun h => ?unscreened, fun h => ?screened, fun h => ?drop, fun h => ?cancel, fun ext h hdest hroom => ?camp⟩
    case unscreened =>
      exact pressed (k := .release) rfl nofun nofun (by simp only [State.loopKey, State.keyRelease, he, hstep, if_pos h])
    case screened =>
      have h3 : r.step ≠ 3 := by rw [h]; decide
      exact pressed (k := .release) rfl nofun nofun (by simp only [State.loopKey, State.keyRelease, he, hstep, if_neg h3, if_pos h])
    case drop =>
      exact pressed (k := .cancel) rfl nofun nofun (by simp only [State.loopKey, State.keyCancel, he, hstep, if_pos h])
    case cancel =>
      have h35 : ¬ (r.step = 3 ∨ r.step = 5) := by rw [h]; decide
      exact pressed (k := .cancel) rfl nofun nofun (by
        simp only [State.loopKey, State.keyCancel, he, hstep, if_neg h35, if_pos h, State.returnConnect])
    case camp =>
      have hdest' : (s.record? i).bind Record.dest = some ext := by rw [(record?_eq_some s i).2 hr.1]; exact hdest
      have hvalid : r.step = 4 ∧ s.campRoom ext = true := ⟨h, (campRoom_iff s ext).2 hroom⟩
      exact pressed (k := .camp) rfl nofun nofun (by simp only [State.loopKey, State.keyCamp, he, hdest', hstep, if_pos hvalid])

end Sys2Proof
end

section
/-! PROOFS. Joining the queue (R43 to R46, R64): what the threshold shows, the night DIVERT, and a recall, each said exactly. -/

namespace Sys2Proof.Machine

/-! ### A change at each position on its own -/

/-- A fold over positions, each of which changes by itself. -/
theorem foldl_positionwise {f : State → Pos → State} {g : Tick → Pos → Position → Position}
    (hpos : ∀ s p q, (f s p).pos q = if p = q then g s.tick p (s.pos p) else s.pos q) (htick : ∀ s p, (f s p).tick = s.tick) :
    ∀ (xs : List Pos) (s : State) (q : Pos), xs.Nodup →
      (xs.foldl f s).pos q = if q ∈ xs then g s.tick q (s.pos q) else s.pos q
  | [], s, q, _ => rfl
  | x :: xs, s, q, hxs => by
    obtain ⟨hx, hxs⟩ := List.nodup_cons.1 hxs
    rw [List.foldl_cons, foldl_positionwise hpos htick xs (f s x) q hxs, htick, hpos]
    by_cases hxq : x = q
    · subst hxq
      simp [hx]
    · simp [hxq, Ne.symm hxq]

theorem foldl_allPos {f : State → Pos → State} {g : Tick → Pos → Position → Position}
    (hpos : ∀ s p q, (f s p).pos q = if p = q then g s.tick p (s.pos p) else s.pos q) (htick : ∀ s p, (f s p).tick = s.tick)
    (s : State) (q : Pos) : (allPos.foldl f s).pos q = g s.tick q (s.pos q) := by
  rw [foldl_positionwise hpos htick allPos s q (by decide), if_pos (mem_allPos q)]

/-! ### QUEUE_THRESHOLD (R46, R162) -/

/-- Raising a position-level alert, exactly (R162, R160). -/
theorem raiseKind_eq (q : Position) (now : Tick) (k : AlertKind) :
    q.raiseKind now k =
      if ((q.state = .opened ∨ q.state = .withdrawn) ∧ q.latchMask.getLsbD k.bit = true) ∧ ∀ a ∈ q.alerts, a.kind ≠ k then
        { q with
          alerts := q.alerts ++ [⟨k, none⟩]
          toneRepeat := if q.toneMask.getLsbD k.bit = true then some (now + 30) else q.toneRepeat
          txq := q.txq ++ raisedTones q k }
      else q := by
  have hcond : (q.enters k && !q.alerts.any fun a => a.kind == k) = true ↔
      ((q.state = .opened ∨ q.state = .withdrawn) ∧ q.latchMask.getLsbD k.bit = true) ∧ ∀ a ∈ q.alerts, a.kind ≠ k := by
    rw [Bool.and_eq_true, enters_iff]
    refine and_congr_right fun _ => ?_
    simp
  unfold Position.raiseKind raisedTones
  by_cases h : ((q.state = .opened ∨ q.state = .withdrawn) ∧ q.latchMask.getLsbD k.bit = true) ∧ ∀ a ∈ q.alerts, a.kind ≠ k
  · rw [if_pos (hcond.2 h), if_pos h, soundEntered_eq]
    by_cases hm : q.toneMask.getLsbD k.bit = true
    · simp only [inMask, hm, if_true, h.1, true_and, and_self, Config.toneRepeat, Config.tonePlaces]
      congr
    · simp only [inMask, hm, if_false, false_and, and_false, Bool.false_eq_true, List.append_nil]
  · rw [if_neg fun hc => h (hcond.1 hc), if_neg h]

theorem pos_raiseKind (s : State) (p q : Pos) (k : AlertKind) :
    (s.raiseKind p k).pos q = if p = q then (s.pos p).raiseKind s.tick k else s.pos q := pos_updPos s p q _

/-- Each position after the threshold check: with the tenant's count at its threshold, the alert where the mask has the tenant. -/
theorem thresholdCheck_pos (s : State) (t : TenantNo) (p : Pos) :
    (s.thresholdCheck t).pos p =
      if ((s.tenant t).threshold ≠ 0 ∧ s.queuedCount t = (s.tenant t).threshold) ∧ (s.pos p).tenantMask.getLsbD t.val = true
      then (s.pos p).raiseKind s.tick .queueThreshold else s.pos p := by
  unfold State.thresholdCheck
  simp only
  by_cases h : (s.tenant t).threshold ≠ 0 ∧ s.queuedCount t = (s.tenant t).threshold
  · rw [if_pos h, foldl_allPos (g := fun now _ q => if covers q.tenantMask t then q.raiseKind now .queueThreshold else q)]
    · exact if_congr (show _ ↔ _ ∧ covers _ _ = true from (and_iff_right h).symm) rfl rfl
    · intro u x q
      by_cases hc : covers (u.pos x).tenantMask t = true
      · rw [if_pos hc, if_pos hc]; exact pos_raiseKind u x q _
      · rw [if_neg hc, if_neg hc]; split
        · next h => rw [h]
        · rfl
    · intro u x
      split <;> rfl
  · rw [if_neg h, if_neg fun hc => h hc.1]

/-- The positions after the check, in the words of the statements. -/
theorem thresholdCheck_shown (s : State) (t : TenantNo) : s.thresholdShown (s.thresholdCheck t) t := by
  have hframe : s.thresholdCheck t = { s with positions := (s.thresholdCheck t).positions } := by
    unfold State.thresholdCheck
    simp only
    split
    · exact foldl_positions _ (fun s a => by split <;> rfl) allPos s
    · rfl
  have hreach (p : Pos) : (s.thresholdCheck t).reachesThreshold (s.pos p) t ↔ s.reachesThreshold (s.pos p) t := by
    rw [hframe]; exact Iff.rfl
  have htick : (s.thresholdCheck t).tick = s.tick := by rw [hframe]
  intro p
  rw [hreach]
  refine ⟨fun h hno => ?_, fun h => ?_⟩
  · obtain ⟨h0, hcount, hmask, hst, hlatch⟩ := h
    have hp : (s.thresholdCheck t).pos p = _ :=
      (thresholdCheck_pos s t p).trans ((if_pos ⟨⟨h0, hcount⟩, hmask⟩).trans
        ((raiseKind_eq _ _ _).trans (if_pos ⟨⟨hst, hlatch⟩, hno⟩)))
    rw [State.thresholdRaised, htick, hp]
    exact ⟨⟨rfl, rfl, rfl, rfl, rfl, rfl, rfl, rfl, rfl, rfl⟩, rfl, rfl, rfl, rfl, rfl⟩
  · rw [thresholdCheck_pos]
    split
    · next hc =>
      rw [raiseKind_eq]
      refine if_neg fun hall => ?_
      obtain h | ⟨a, ha, hk⟩ := h
      · exact h ⟨hc.1.1, hc.1.2, hc.2, hall.1.1, hall.1.2⟩
      · exact hall.2 a ha hk
    · rfl

/-- What is shown rests on the queue, the tenants and the records alone. -/
theorem thresholdShown_congr {s s' u u' : State} {t : TenantNo} (h : s.thresholdShown u t) (hs : s'.positions = s.positions)
    (hp : u'.positions = u.positions) (hslots : u'.slots = u.slots) (hqueue : u'.queue = u.queue) (htenants : u'.tenants = u.tenants)
    (htick : u'.tick = u.tick) : s'.thresholdShown u' t := by
  have hcount : u'.queuedCount t = u.queuedCount t := by
    simp only [State.queuedCount, State.tenantOf, State.record?, State.slot, hslots, hqueue]
  have hspos (p : Pos) : s'.pos p = s.pos p := by simp only [State.pos, hs]
  have hupos (p : Pos) : u'.pos p = u.pos p := by simp only [State.pos, hp]
  intro p
  have := h p
  simp only [State.reachesThreshold, State.thresholdRaised, State.tenant, hcount, hspos, hupos, htenants, htick] at this ⊢
  exact this

/-! ### Joining the tail (R43, R64) -/

theorem joinTail_live {s : State} {i : Slot} {r : Record} (h : s.slot i = .live r) :
    s.joinTail i = State.thresholdCheck { s with queue := s.queue ++ [i] } r.tenant := by
  rw [State.joinTail, tenantOf_of_live h]

theorem joinTail_shown {s : State} {i : Slot} {r : Record} (h : s.slot i = .live r) :
    s.thresholdShown (s.joinTail i) r.tenant ∧ s.joinTail i = { s with
      queue := s.queue ++ [i], positions := (s.joinTail i).positions } := by
  refine ⟨?_, by rw [← joinTail_queue_live h]; exact joinTail_frame s i⟩
  rw [joinTail_live h]
  exact thresholdShown_congr (thresholdCheck_shown { s with queue := s.queue ++ [i] } r.tenant) rfl rfl rfl rfl rfl rfl

/-- The night DIVERT of a settled record that joins the queue (R64). -/
theorem nightJoin_settled {s : State} {i : Slot} {r : Record} (hr : s.settled i r) :
    s.nightJoin i = { s with orders := s.orders ++ s.nightEntries i r } := by
  unfold State.nightJoin State.nightEntries
  by_cases hn : s.night = .night
  · rw [if_pos hn, if_pos hn, State.nightDivert, tenantOf_of_live hr.1, Option.bind_some]
    cases hd : (s.tenant r.tenant).nightDest with
    | none => exact (congrArg (fun os => { s with orders := os }) (List.append_nil _)).symm
    | some d => exact issue_fresh hr _ _
  · rw [if_neg hn, if_neg hn, List.append_nil]

/-! ### A recall (R44) -/

/-- A settled record joins the queue as a recall: its new form, the tail of the queue, the night DIVERT, and the threshold. -/
theorem recall_spec {s : State} {i : Slot} {r : Record} (hr : s.settled i r) (why : RecallReason) (owner : Option Pos) :
    s.thresholdShown (s.recall i why owner) r.tenant ∧ s.recall i why owner = { s with
      slots := s.slots.set i (.live (s.recalled r why owner)), queue := s.queue ++ [i]
      orders := s.orders ++ s.nightEntries i r, positions := (s.recall i why owner).positions } := by
  have hlive : (s.setSlot i (.live (s.recalled r why owner))).slot i = .live (s.recalled r why owner) := slot_setSlot_self _ _ _
  obtain ⟨hshown, hjoin⟩ := joinTail_shown hlive
  have hsettled : ((s.setSlot i (.live (s.recalled r why owner))).joinTail i).settled i (s.recalled r why owner) := by
    rw [hjoin]; exact ⟨hlive, hr.2⟩
  have hentries : ((s.setSlot i (.live (s.recalled r why owner))).joinTail i).nightEntries i (s.recalled r why owner) =
      s.nightEntries i r := by rw [hjoin]; rfl
  have horders : ((s.setSlot i (.live (s.recalled r why owner))).joinTail i).orders = s.orders := by rw [hjoin]; rfl
  rw [recall_live hr.1, nightJoin_settled hsettled, hentries, horders]
  refine ⟨thresholdShown_congr hshown rfl rfl rfl rfl rfl rfl, ?_⟩
  rw [hjoin]
  rfl

end Sys2Proof.Machine
end

section
/-! PROOFS. The expiries of record timers and of the night delay (R31 to R40, R55, R59, R63, R83, R84, R114, R119, R121). -/

namespace Sys2Proof.Machine

theorem fresh_congr {r r' : Record} (h : r'.ref = r.ref) (i : Slot) (o : Order) (m : Mark) :
    Entry.fresh i r' o m = Entry.fresh i r o m := by
  rw [Entry.fresh, Entry.fresh, h]

/-! ### An expiry: held, delivered, or none (R35) -/

/-- The end of the event of a delivered expiry, by the timer's purpose. -/
def State.finishFor (pu : Purpose) (s : State) : State :=
  match pu with
  | .aging | .noAnswer | .campTimeout => s.finishOrders
  | .offer | .parkRecall => s.finishOffers
  | .holdRecall => s.refresh
  | .escalate => s.finishAll

theorem exec_expiryCommand (s : State) (pu : Purpose) (i : Slot) :
    exec (expiryCommand pu i) s = .next (s.expiry i pu (State.finishFor pu)) := by
  cases pu <;> rfl

theorem due_iff (r : Record) (now : Tick) (pu : Purpose) : r.due now pu = true ↔
    ∃ t, r.timer = some t ∧ t.purpose = pu ∧ t.spent = false ∧ (now - t.deadline).toNat < 32768 := by
  unfold Record.due
  cases r.timer with
  | none => simp
  | some t => simp [expired, and_assoc]

theorem due_of_dueAt {s : State} {i : Slot} {r : Record} {pu : Purpose} {d : Tick} (h : s.dueAt i r pu d) :
    r.due s.tick pu = true := (due_iff r s.tick pu).2 ⟨_, h.2.1, rfl, rfl, h.2.2⟩

theorem expiry_held {s : State} {i : Slot} {r : Record} {pu : Purpose} {d : Tick} (h : s.dueAt i r pu d)
    (hf : s.inFlight i = true) (finish : State → State) : s.expiry i pu finish =
      s.setSlot i (.live { r with timer := some ⟨pu, d, true⟩, held := some pu }) := by
  rw [State.expiry, (record?_eq_some s i).2 h.1]
  simp only [due_of_dueAt h, if_true, hf]
  rw [updRec_slots_of_live h.1, Record.hold, h.2.1]
  rfl

theorem expiry_delivered {s : State} {i : Slot} {r : Record} {pu : Purpose} {d : Tick} (h : s.dueAt i r pu d)
    (hr : s.settled i r) (finish : State → State) : s.expiry i pu finish = finish (s.deliver i pu d) := by
  rw [State.expiry, (record?_eq_some s i).2 h.1]
  simp only [due_of_dueAt h, if_true, inFlight_of_settled hr, h.2.1, Bool.false_eq_true, if_false]

theorem expiry_none {s : State} {i : Slot} {pu : Purpose} (finish : State → State)
    (h : ∀ r t, s.slot i = .live r → r.timer = some t → t.purpose ≠ pu ∨ t.spent = true ∨ 32768 ≤ (s.tick - t.deadline).toNat) :
    s.expiry i pu finish = s := by
  unfold State.expiry
  split
  · next r hr =>
    refine if_neg fun hc => ?_
    obtain ⟨t, ht, hpu, hspent, hdue⟩ := (due_iff r s.tick pu).1 hc
    obtain h | h | h := h r t ((record?_eq_some s i).1 hr) ht
    · exact h hpu
    · rw [h] at hspent; cases hspent
    · omega
  · rfl

/-! ### AGING (R38 to R40) -/

theorem armAging_timer {s : State} {i : Slot} {r : Record} (h : s.slot i = .live r) :
    s.armAging i = s.setSlot i (.live { r with timer := s.agingTimer r, held := none }) := by
  rw [armAging_live ((record?_eq_some s i).2 h), State.agingTimer]
  by_cases hlt : r.aging.val < 15
  · rw [if_pos hlt, if_pos (show r.aging < Config.agingCeiling from hlt)]
    rfl
  · rw [if_neg hlt, if_neg (show ¬ r.aging < Config.agingCeiling from hlt)]
    rfl

/-- The overflow DIVERT that a number of aging steps brings about (R40, R59). -/
def State.overflowEntries (s : State) (i : Slot) (r : Record) (steps : Fin 16) (spent : Bool) : List Entry :=
  match (s.tenant r.tenant).overflowDest with
  | some ext =>
    if (s.tenant r.tenant).overflowStep ≠ 0 ∧ steps.val = (s.tenant r.tenant).overflowStep ∧ spent = false
    then [Entry.fresh i r (.divert ext) .overflow] else []
  | none => []

theorem overflowTest_settled {s : State} {i : Slot} {r : Record} (hr : s.settled i r) :
    s.overflowTest i = { s with orders := s.orders ++ s.overflowEntries i r r.aging r.overflowSpent } := by
  rw [State.overflowTest, (record?_eq_some s i).2 hr.1, State.overflowEntries]
  cases hd : (s.tenant r.tenant).overflowDest with
  | none => simp only [hd, List.append_nil]
  | some ext =>
    simp only [hd]
    by_cases hc : (s.tenant r.tenant).overflowStep ≠ 0 ∧ r.aging.val = (s.tenant r.tenant).overflowStep ∧ r.overflowSpent = false
    · rw [if_pos hc, if_pos hc]
      exact issue_fresh hr _ _
    · rw [if_neg hc, if_neg hc, List.append_nil]

/-- One aging step more, and none above 15 (R39). -/
theorem agingStep_eq {aging steps : Fin 16} (h : steps.val = min 15 (aging.val + 1)) :
    (if aging < Config.agingCeiling then aging + 1 else aging) = steps := by
  refine Fin.ext ?_
  have hlt := aging.isLt
  split
  · next hc =>
    have hc : aging.val < 15 := hc
    rw [Fin.val_add, h]
    show (aging.val + 1) % 16 = _
    omega
  · next hc =>
    have hc : ¬ aging.val < 15 := hc
    omega

theorem agingDue_settled {s : State} {i : Slot} {r : Record} {steps : Fin 16} (hr : s.settled i r)
    (hsteps : steps.val = min 15 (r.aging.val + 1)) (d : Tick) :
    s.agingDue i d = { s with
      slots := s.slots.set i (.live { r with
        aging := steps, held := none
        timer := if steps.val < 15 then some ⟨.aging, rearmed s.tick d (s.tenant r.tenant).agingInterval, false⟩ else none })
      orders := s.orders ++ s.overflowEntries i r steps r.overflowSpent } := by
  have hrec : (s.updRec i fun r =>
      let steps : Fin 16 := if r.aging < Config.agingCeiling then r.aging + 1 else r.aging
      let r' := { r with aging := steps }
      if steps < Config.agingCeiling then r'.armAt .aging (rearmed s.tick d (s.tenant r.tenant).agingInterval) else r'.disarm) =
      s.setSlot i (.live { r with
        aging := steps, held := none
        timer := if steps.val < 15 then some ⟨.aging, rearmed s.tick d (s.tenant r.tenant).agingInterval, false⟩ else none }) := by
    rw [updRec_slots_of_live hr.1]
    simp only [agingStep_eq hsteps]
    by_cases hlt : steps.val < 15
    · rw [if_pos hlt, if_pos (show steps < Config.agingCeiling from hlt)]
      rfl
    · rw [if_neg hlt, if_neg (show ¬ steps < Config.agingCeiling from hlt)]
      rfl
  unfold State.agingDue
  simp only at hrec ⊢
  rw [hrec]
  exact overflowTest_settled (s := s.setSlot i _) ⟨slot_setSlot_self _ _ _, hr.2⟩

/-! ### The other expiries -/

theorem retrieveDue_settled {s : State} {i : Slot} {r : Record} {pu : Purpose} {d : Tick} {x : Bool} (hr : s.settled i r)
    (ht : r.timer = some ⟨pu, d, x⟩) : s.retrieveDue i = { s with
      slots := s.slots.set i (.live { r with timer := some ⟨pu, d, true⟩ })
      orders := s.orders ++ [Entry.fresh i r .retrieve .none] } := by
  have hlive : State.slot { s with orders := s.orders ++ [Entry.fresh i r .retrieve .none] } i = .live r := hr.1
  rw [State.retrieveDue, issue_fresh hr, updRec_slots_of_live hlive, ht]
  rfl

theorem holdRecallDue_loop {s : State} {i : Slot} {r : Record} {p : Pos} {l : LoopNo} (hr : s.slot i = .live r)
    (hl : r.loc = .loop p l) (d : Tick) : s.holdRecallDue i d =
      ((s.setLoop p l (.recalling i)).raiseLoop p .holdRecall l).setSlot i
        (.live (r.armAt .escalate (rearmed s.tick d s.timing.escalation))) := by
  have hloc : (s.record? i).map Record.loc = some (.loop p l) := by
    rw [(record?_eq_some s i).2 hr, Option.map_some, hl]
  simp only [State.holdRecallDue, hloc]
  exact armFrom_live (s := (s.setLoop p l (.recalling i)).raiseLoop p .holdRecall l) ((record?_eq_some s i).2 hr) _ _ _

theorem escalateDue_loop {s : State} {i : Slot} {r : Record} {p : Pos} {l : LoopNo} (hr : s.slot i = .live r)
    (hl : r.loc = .loop p l) : s.escalateDue i = (s.loopIdle p l).recall i .hold (some p) := by
  have hloc : (s.record? i).map Record.loc = some (.loop p l) := by
    rw [(record?_eq_some s i).2 hr, Option.map_some, hl]
  simp only [State.escalateDue, hloc, State.recallFrom]
  rw [leaveHolder_loop ((record?_eq_some s i).2 hr) hl]

theorem parkRecallDue_parked {s : State} {i : Slot} {r : Record} {o : OrbitNo} (hr : s.slot i = .live r)
    (hl : r.loc = .parked o) : s.parkRecallDue i = (s.freeOrbits i).recall i .park r.owner := by
  rw [State.parkRecallDue, (record?_eq_some s i).2 hr]
  simp only [State.recallFrom]
  rw [leaveHolder_parked ((record?_eq_some s i).2 hr) hl]

theorem orbit_freed (s : State) (i : Slot) (o : OrbitNo) : (s.freeOrbits i).orbit o =
    if s.orbit o = .occupied i ∨ s.orbit o = .reserved i then .empty else s.orbit o := by
  rw [orbit_freeOrbits]
  exact if_congr ((names_iff _ _).trans Or.comm) rfl rfl

/-! ### Night entry (R63) -/

/-- The night DIVERT that night entry issues for a slot of the queue. -/
def State.nightOrder (s : State) (i : Slot) : Option Entry :=
  match s.slot i with
  | .live r =>
    if r.mark = none ∧ r.claim = none ∧ ¬ (∃ e ∈ s.orders, e.slot = i) then
      (s.tenant r.tenant).nightDest.map fun ext => Entry.fresh i r (.divert ext) .night
    else none
  | _ => none

theorem nightOrder_slot {s : State} {i : Slot} {e : Entry} (h : s.nightOrder i = some e) : e.slot = i := by
  unfold State.nightOrder at h
  split at h
  · split at h
    · obtain ⟨ext, -, rfl⟩ := Option.map_eq_some_iff.1 h
      rfl
    · cases h
  · cases h

/-- One call of the queue at night entry. -/
theorem nightDivert_step (s : State) (i : Slot) :
    (if s.nightDiverts i then s.nightDivert i else s) = { s with orders := s.orders ++ (s.nightOrder i).toList } := by
  unfold State.nightDiverts State.nightOrder
  cases hx : s.slot i with
  | live r =>
    simp only [(record?_eq_some s i).2 hx]
    have hcond : (r.mark == none && r.claim == none && !s.inFlight i) = true ↔
        r.mark = none ∧ r.claim = none ∧ ¬ ∃ e ∈ s.orders, e.slot = i := by
      rw [Bool.and_eq_true, Bool.and_eq_true, beq_iff_eq, beq_iff_eq, Bool.not_eq_true', ← Bool.not_eq_true, inFlight_iff,
        and_assoc]
    by_cases hc : r.mark = none ∧ r.claim = none ∧ ¬ ∃ e ∈ s.orders, e.slot = i
    · rw [if_pos (hcond.2 hc), if_pos hc, State.nightDivert, tenantOf_of_live hx, Option.bind_some]
      have hr : s.settled i r := ⟨hx, fun e he hi => hc.2.2 ⟨e, he, hi⟩⟩
      cases (s.tenant r.tenant).nightDest with
      | none => exact (congrArg (fun os => { s with orders := os }) (List.append_nil _)).symm
      | some d => exact issue_fresh hr _ _
    · rw [if_neg fun h => hc (hcond.1 h), if_neg hc, Option.toList_none, List.append_nil]
  | free | retiring =>
    have hnone : s.record? i = none := (record?_eq_none s i).2 fun r hr => by rw [hx] at hr; cases hr
    simp only [hnone, Bool.false_eq_true, if_false, Option.toList_none, List.append_nil]

/-- The DIVERTs of the queue do not depend on each other: no slot stands in it twice. -/
theorem nightDiverts_fold : ∀ (q : List Slot) (s : State), q.Nodup →
    q.foldl (fun t i => if t.nightDiverts i then t.nightDivert i else t) s =
      { s with orders := s.orders ++ q.filterMap s.nightOrder }
  | [], s, _ => congrArg (fun os => { s with orders := os }) (List.append_nil _).symm
  | i :: q, s, hq => by
    obtain ⟨hi, hq⟩ := List.nodup_cons.1 hq
    rw [List.foldl_cons, nightDivert_step, nightDiverts_fold q _ hq]
    have hrest : q.filterMap (State.nightOrder { s with orders := s.orders ++ (s.nightOrder i).toList }) =
        q.filterMap s.nightOrder := by
      refine List.filterMap_congr fun j hj => ?_
      have hji : ∀ e ∈ (s.nightOrder i).toList, e.slot ≠ j := fun e he hc =>
        hi ((nightOrder_slot (Option.mem_toList.1 he)).symm.trans hc ▸ hj)
      have hflight : (∃ e ∈ s.orders ++ (s.nightOrder i).toList, e.slot = j) ↔ ∃ e ∈ s.orders, e.slot = j := by
        refine ⟨fun ⟨e, he, hc⟩ => ?_, fun ⟨e, he, hc⟩ => ⟨e, List.mem_append_left _ he, hc⟩⟩
        exact ⟨e, (List.mem_append.1 he).resolve_right fun h => hji e h hc, hc⟩
      unfold State.nightOrder
      show (match s.slot j with | .live r => _ | _ => _) = _
      cases s.slot j with
      | live r => exact if_congr (and_congr_right fun _ => and_congr_right fun _ => not_congr hflight) rfl rfl
      | free | retiring => rfl
    rw [hrest]
    refine congrArg (fun os => { s with orders := os }) ?_
    rw [List.append_assoc]
    congr 1
    cases h : s.nightOrder i with
    | none => rw [List.filterMap_cons_none h]; rfl
    | some e => rw [List.filterMap_cons_some h]; rfl

end Sys2Proof.Machine

namespace Sys2Proof.Machine

/-! ### The end of an offer (R55) -/

theorem offerDue_marked {s : State} {i : Slot} {r : Record} {p : Pos} {l : LoopNo} (hr : s.slot i = .live r)
    (hm : r.mark = some (p, l)) : s.offerDue i =
      (let s1 := (s.setSlot i (.live { r with mark := none, timer := s.agingTimer r, held := none })).loopIdle p l
      if (s.pos p).state = .opened then (s1.updPos p fun q => { q with state := .withdrawn }).raiseKind p .autoWithdrawn else s1) := by
  have hstate : ((s.setSlot i (.live { r with mark := none, timer := s.agingTimer r, held := none })).loopIdle p l |>.pos p).state =
      (s.pos p).state := by
    rw [State.loopIdle, pos_updPos_self]; rfl
  have hslot : (s.setSlot i (.live { r with mark := none })).slot i = .live { r with mark := none } := slot_setSlot_self _ _ _
  rw [State.offerDue, (record?_eq_some s i).2 hr]
  simp only [hm, updRec_slots_of_live hr]
  rw [armAging_timer hslot, setSlot_setSlot]
  simp only [← hstate]
  rfl

/-- An OPEN position after its loop became IDLE is withdrawn, and shows AUTO_WITHDRAWN where its latch mask has the kind. -/
theorem withdrawal_shows {s w : State} {p : Pos} {l : LoopNo} {shown : AlertView}
    (h : s.workAt w p l .idle shown (s.pos p).note []) (htick : w.tick = s.tick) (ho : (s.pos p).state = .opened) :
    let u := (w.updPos p fun q => { q with state := .withdrawn }).raiseKind p .autoWithdrawn
    u.loop p l = .idle ∧ s.sameLoops u p l ∧ s.sameOthers u p ∧
      (u.pos p).state = (if (s.pos p).state = .opened then .withdrawn else (s.pos p).state) ∧
      (let shows := (s.pos p).state = .opened ∧ (s.pos p).latchMask.getLsbD AlertKind.autoWithdrawn.bit = true ∧
        ∀ a ∈ shown.alerts, a.kind ≠ .autoWithdrawn
      (shows → u.view p = ⟨shown.alerts ++ [⟨.autoWithdrawn, none⟩], s.repeatRaised p .autoWithdrawn shown.repeats⟩ ∧
        (u.pos p).txq = (s.pos p).txq ++ raisedTones (s.pos p) .autoWithdrawn) ∧
      (¬ shows → u.view p = shown ∧ (u.pos p).txq = (s.pos p).txq)) ∧
      (s.pos p).sameSettings { u.pos p with state := (s.pos p).state } ∧ (u.pos p).note = (s.pos p).note := by
  intro u
  obtain ⟨hloop, hloops, hothers, hset, hview, hnote, htxq⟩ := h
  obtain ⟨hstate, hkeys, htenants, hlatch, htone, hrest⟩ := hset
  subst hview
  rw [List.append_nil] at htxq
  have hpos : u.pos p = Position.raiseKind { w.pos p with state := .withdrawn } s.tick .autoWithdrawn := by
    show ((w.updPos p fun q => { q with state := .withdrawn }).raiseKind p .autoWithdrawn).pos p = _
    rw [pos_raiseKind, if_pos rfl, pos_updPos_self, updPos_tick, htick]
  have hother (q : Pos) (hq : q ≠ p) : u.pos q = w.pos q := by
    show ((w.updPos p fun q => { q with state := .withdrawn }).raiseKind p .autoWithdrawn).pos q = _
    rw [pos_raiseKind, if_neg hq.symm, pos_updPos_ne _ _ _ _ hq.symm]
  have hframe := raiseKind_frame { w.pos p with state := .withdrawn } s.tick .autoWithdrawn
  rw [← hpos] at hframe
  have hsame (m : LoopNo) : u.loop p m = w.loop p m := by
    rw [State.loop, hframe]; rfl
  refine ⟨(hsame l).trans hloop, fun m hm => (hsame m).trans (hloops m hm), fun q hq => (hother q hq).trans (hothers q hq), ?_, ?_,
    ?_, ?_⟩
  · rw [hframe, if_pos ho]
  · have hcond : (((PosState.withdrawn = .opened ∨ PosState.withdrawn = .withdrawn) ∧
        (w.pos p).latchMask.getLsbD AlertKind.autoWithdrawn.bit = true) ∧ ∀ a ∈ (w.pos p).alerts, a.kind ≠ .autoWithdrawn) ↔
        (s.pos p).state = .opened ∧ (s.pos p).latchMask.getLsbD AlertKind.autoWithdrawn.bit = true ∧
          ∀ a ∈ (w.view p).alerts, a.kind ≠ .autoWithdrawn := by
      rw [hlatch]
      exact ⟨fun h => ⟨ho, h.1.2, h.2⟩, fun h => ⟨⟨.inr rfl, h.2.1⟩, h.2.2⟩⟩
    have heq := hpos.trans (raiseKind_eq _ _ _)
    refine ⟨fun hshows => ?_, fun hno => ?_⟩
    · rw [if_pos (hcond.2 hshows)] at heq
      have htones : raisedTones { w.pos p with state := .withdrawn } .autoWithdrawn = raisedTones (s.pos p) .autoWithdrawn := by
        simp only [raisedTones, hlatch, htone, htxq, ho, true_or, or_true, true_and]
      rw [State.view, heq, State.repeatRaised]
      refine ⟨by simp only [htone, State.view], ?_⟩
      show (w.pos p).txq ++ raisedTones { w.pos p with state := .withdrawn } .autoWithdrawn = _
      rw [htones, htxq]
    · rw [if_neg fun h => hno (hcond.1 h)] at heq
      rw [State.view, heq]
      exact ⟨rfl, htxq⟩
  · rw [hframe]
    exact ⟨rfl, hkeys, htenants, hlatch, htone, hrest⟩
  · rw [hframe]
    exact hnote

end Sys2Proof.Machine

namespace Sys2Proof
open Sys2Proof.Machine

/-- Settles O21. -/
theorem agingExpiryRaisesTheStep : Obligations.AgingExpiryRaisesTheStep := by
  intro s i r d steps hr hdue hsteps
  refine (exec_expiryCommand s .aging i).trans ?_
  rw [expiry_delivered hdue hr]
  show Host.Outcome.next (State.finishOrders (s.agingDue i d)) = _
  rw [agingDue_settled hr hsteps]
  rfl

/-- Settles O22. -/
theorem offerExpiryWithdrawsThePosition : Obligations.OfferExpiryWithdrawsThePosition := by
  intro s i r d p l hr hdue hm
  have hexec : exec (.offerExpiry i) s = .next (s.offerDue i).finishOffers :=
    (exec_expiryCommand s .offer i).trans (by rw [expiry_delivered hdue hr]; rfl)
  have hidle := ((State.workAt.refl s p l).of_positions
    (v := s.setSlot i (.live { r with mark := none, timer := s.agingTimer r, held := none })) rfl).loopIdle
  rw [hexec, offerDue_marked hr.1 hm]
  dsimp only
  by_cases ho : (s.pos p).state = .opened
  · rw [if_pos ho]
    refine ⟨_, rfl, rfl, ?_⟩
    exact withdrawal_shows hidle rfl ho
  · rw [if_neg ho]
    obtain ⟨hloop, hloops, hothers, hset, hview, hnote, htxq⟩ := hidle
    refine ⟨_, rfl, rfl, hloop, hloops, hothers, by rw [if_neg ho]; exact hset.1, ⟨fun h => absurd h.1 ho, fun _ => ⟨hview, ?_⟩⟩, ?_, hnote⟩
    · rw [htxq, List.append_nil]
    · exact ⟨rfl, hset.2⟩

/-- Settles O23. -/
theorem holdRecallExpiryMakesTheLoopRecalling : Obligations.HoldRecallExpiryMakesTheLoopRecalling := by
  intro s i r d p l hr hdue hl
  have hexec : exec (.holdRecallExpiry i) s = .next (s.holdRecallDue i d).refresh :=
    (exec_expiryCommand s .holdRecall i).trans (by rw [expiry_delivered hdue hr]; rfl)
  rw [hexec, holdRecallDue_loop hr.1 hl]
  exact ⟨_, rfl, rfl, (((State.workAt.refl s p l).setLoop (.recalling i)).raiseLoop_first rfl .holdRecall).of_positions rfl⟩

/-- Settles O24: the call leaves its loop or orbit, and the recall does the rest. -/
theorem escalationAndParkRecallJoinTheQueue : Obligations.EscalationAndParkRecallJoinTheQueue := by
  refine ⟨fun s i r d p l hr hdue hl => ?escalate, fun s i r d o hr hdue hl => ?park⟩
  case escalate =>
    have hexec : exec (.escalateExpiry i) s = .next (s.escalateDue i).finishAll :=
      (exec_expiryCommand s .escalate i).trans (by rw [expiry_delivered hdue hr]; rfl)
    rw [hexec, escalateDue_loop hr.1 hl]
    obtain ⟨hshown, hframe⟩ := recall_spec (s := s.loopIdle p l) hr .hold (some p)
    exact ⟨s.loopIdle p l, _, rfl, (State.workAt.refl s p l).loopIdle, hshown, hframe⟩
  case park =>
    have hexec : exec (.parkRecallExpiry i) s = .next (s.parkRecallDue i).finishOffers :=
      (exec_expiryCommand s .parkRecall i).trans (by rw [expiry_delivered hdue hr]; rfl)
    rw [hexec, parkRecallDue_parked hr.1 hl]
    obtain ⟨hshown, hframe⟩ := recall_spec (s := s.freeOrbits i) hr .park r.owner
    refine ⟨_, rfl, hshown, ?_, fun x => ?_⟩
    · rw [hframe]; rfl
    · rw [hframe]; exact orbit_freed s i x

/-- Settles O25. -/
theorem unansweredCallsAreRetrieved : Obligations.UnansweredCallsAreRetrieved := by
  intro s i r d pu hpu hr hdue
  rw [exec_expiryCommand, expiry_delivered hdue hr]
  obtain rfl | rfl := hpu <;> exact congrArg (fun t => Host.Outcome.next (State.finishOrders t)) (retrieveDue_settled hr hdue.2.1)

/-- Settles O26. -/
theorem nightEntryDivertsTheQueue : Obligations.NightEntryDivertsTheQueue := by
  have hexec (s : State) : exec .nightDelayExpiry s = .next (match s.nightDelay with
      | some d => if expired s.tick d then s.nightEntry.finishOrders else s
      | none => s) := rfl
  refine ⟨fun s d hq hd hdue => ?entered, fun s h => ?notDue⟩
  case entered =>
    have hfold : s.nightEntry = _ := nightDiverts_fold s.queue { s with night := .night, nightDelay := none } hq
    rw [hexec, hd]
    simp only [if_pos ((expired_iff _ _).2 hdue), hfold]
    rfl
  case notDue =>
    rw [hexec]
    cases hd : s.nightDelay with
    | none => rfl
    | some d => exact congrArg Host.Outcome.next (if_neg (not_expired (h d hd)))

end Sys2Proof
end

section
/-! PROOFS. How a RESPONSE comes to the block that acts on it (R128 to R134), and what is left of the end of its sequence when the
call carries no claim and no held expiry (R132). -/

namespace Sys2Proof.Machine

/-! ### From the message to the answer -/

theorem headEntry_of_answering {s : State} {e : Entry} (h : s.answering e) : s.headEntry = some e := by
  rw [State.headEntry, h.2.1, Option.bind_some, h.2.2]

theorem responseMessage_up {s : State} (hup : s.link = .up) (k hi lo o d : Byte) :
    s.responseMessage [k, hi, lo, o, d] = s.response ⟨k, hi ++ lo, o, d⟩ := if_pos hup

/-- A matching response, by its outcome (R128). -/
theorem response_matched {s : State} {e : Entry} (h : s.answering e) (o d : Byte) :
    s.responseMessage (e.reply o d) =
      match outcomeOf o d with
      | some (.done b) => s.answered e (some (.done b))
      | some .noCall => s.answered e none
      | some (.refused answered) => s.answered e (some (.refused answered))
      | some .retry => s.retried e
      | none => s.protocolError Decode.typeResponse e.ref := by
  have hmessage : s.responseMessage (e.reply o d) = s.response ⟨e.order.code, e.ref, o, d⟩ :=
    (responseMessage_up h.1 _ _ _ _ _).trans (congrArg (fun ref => s.response ⟨e.order.code, ref, o, d⟩) (pair_wordBytes e.ref))
  rw [hmessage]
  simp only [State.response, headEntry_of_answering h]
  cases outcomeOf o d with
  | none => rfl
  | some x => cases x <;> exact if_pos ⟨rfl, rfl⟩

theorem exec_done {s : State} {e : Entry} (h : s.answering e) (d : Byte) :
    exec (.responseDone (e.reply 1 d)) s = .next (s.answered e (some (.done d))) :=
  congrArg Host.Outcome.next (response_matched h 1 d)

theorem exec_refused {s : State} {e : Entry} (h : s.answering e) {d : Byte} (hd : d ≠ 2) :
    exec (.responseRefused (e.reply 2 d)) s = .next (s.answered e (some (.refused (d == 3)))) := by
  have hout : outcomeOf 2 d = some (.refused (d == 3)) := if_neg hd
  exact congrArg Host.Outcome.next ((response_matched h 2 d).trans (by rw [hout]))

theorem exec_noCall {s : State} {e : Entry} (h : s.answering e) :
    exec (.responseRefused (e.reply 2 2)) s = .next (s.answered e none) :=
  congrArg Host.Outcome.next (response_matched h 2 2)

theorem exec_retry {s : State} {e : Entry} (h : s.answering e) (d : Byte) :
    exec (.responseRetry (e.reply 3 d)) s = .next (s.retried e) :=
  congrArg Host.Outcome.next (response_matched h 3 d)

/-! ### The entry leaves, the owner acts, and the rest of the sequence (R132) -/

theorem dropEntry_settled {s : State} {i : Slot} {r : Record} (h : s.slot i = .live r) : (s.withoutEntry i).settled i r := by
  refine ⟨h, fun e he hi => ?_⟩
  obtain ⟨-, hne⟩ := List.mem_filter.1 he
  rw [hi] at hne
  simp at hne

theorem reexamine_unclaimed {u : State} {i : Slot} (h : ∀ r, u.slot i = .live r → r.claim = none) : u.reexamine i = u := by
  unfold State.reexamine
  cases hr : u.record? i with
  | none => rfl
  | some r => simp only [h r ((record?_eq_some u i).1 hr)]

theorem reexamine_granted {u : State} {i : Slot} {r : Record} {c : Claim} (hr : u.slot i = .live r) (hc : r.claim = some c)
    (hg : c.granted = true) : u.reexamine i = u := by
  simp only [State.reexamine, (record?_eq_some u i).2 hr, hc, hg, Bool.true_or, if_true]

theorem settleHeld_none {u : State} {i : Slot} (h : ∀ r, u.slot i = .live r → r.held = none) : u.settleHeld i = u := by
  unfold State.settleHeld
  cases hr : u.record? i with
  | none => rfl
  | some r => simp only [h r ((record?_eq_some u i).1 hr)]

/-- The rest of the sequence at a call with no claim and no held expiry. -/
theorem settle_quiet {u : State} {i : Slot} (h : ∀ r, u.slot i = .live r → r.claim = none ∧ r.held = none) :
    (u.reexamine i).settleHeld i = u := by
  rw [reexamine_unclaimed fun r hr => (h r hr).1, settleHeld_none fun r hr => (h r hr).2]

theorem dropEntry_eq (s : State) (i : Slot) : s.dropEntry i = s.withoutEntry i := rfl

theorem answered_live {s : State} {e : Entry} {r : Record} (h : s.slot e.slot = .live r) (a : Answer) :
    s.answered e (some a) =
      ((((s.withoutEntry e.slot).ownerActs e.slot r e a).reexamine e.slot).settleHeld e.slot).finishAll := by
  have hlive : (s.withoutEntry e.slot).slot e.slot = .live r := h
  unfold State.answered
  rw [dropEntry_eq]
  generalize s.withoutEntry e.slot = u at *
  simp only [hlive]

/-- An answer whose work leaves no claim and no held expiry. -/
theorem answered_quiet {s u : State} {e : Entry} {r : Record} {a : Answer} (h : s.slot e.slot = .live r)
    (hu : (s.withoutEntry e.slot).ownerActs e.slot r e a = u)
    (hq : ∀ r', u.slot e.slot = .live r' → r'.claim = none ∧ r'.held = none) : s.answered e (some a) = u.finishAll := by
  rw [answered_live h, hu, settle_quiet hq]

/-- What a slot written last holds. -/
theorem live_of_set {u v : State} {i : Slot} {r r' : Record} (h : u.slots = (v.setSlot i (.live r)).slots)
    (hr' : u.slot i = .live r') : r' = r := by
  have hslot : u.slot i = .live r := (slot_of_slots h i).trans (slot_setSlot_self _ _ _)
  rw [hslot] at hr'
  exact (SlotState.live.inj hr').symm

theorem free_of_set {u v : State} {i : Slot} (h : u.slots = (v.setSlot i .free).slots) (r : Record) : u.slot i ≠ .live r := by
  rw [slot_of_slots h i, slot_setSlot_self]
  nofun

/-! ### An entry in its list place -/

theorem updEntry_split {s : State} {a b : List Entry} {e : Entry} (hn : (s.orders.map Entry.slot).Nodup)
    (ho : s.orders = a ++ e :: b) (f : Entry → Entry) : s.updEntry e.slot f = { s with orders := a ++ f e :: b } := by
  rw [ho, List.map_append, List.map_cons, List.nodup_append] at hn
  obtain ⟨-, hb, hab⟩ := hn
  obtain ⟨heb, -⟩ := List.nodup_cons.1 hb
  have hkeep (xs : List Entry) (hxs : ∀ x ∈ xs, x.slot ≠ e.slot) : (xs.map fun x => if x.slot = e.slot then f x else x) = xs :=
    (List.map_congr_left fun x hx => if_neg (hxs x hx)).trans (List.map_id' _)
  rw [State.updEntry, ho, List.map_append, List.map_cons, if_pos rfl,
    hkeep a fun x hx => hab _ (List.mem_map_of_mem hx) _ List.mem_cons_self,
    hkeep b fun x hx hc => heb (hc ▸ List.mem_map_of_mem hx)]

end Sys2Proof.Machine

namespace Sys2Proof
open Sys2Proof.Machine

/-- Settles O37. -/
theorem responseThatMatchesNothingIsDiscarded : Obligations.ResponseThatMatchesNothingIsDiscarded := by
  intro s k hi lo o d c hup hc
  have hexec : exec c s = .next (s.response ⟨k, hi ++ lo, o, d⟩) := by
    rw [← responseMessage_up hup]
    simp only [List.mem_cons, List.not_mem_nil, or_false] at hc
    obtain rfl | rfl | rfl := hc <;> rfl
  rw [hexec]
  refine ⟨fun hw => ?noHead, fun h1 h2 h3 => ?unknown, fun e he hne => ?differs⟩
  case noHead =>
    have hhead : s.headEntry = none := by rw [State.headEntry, hw]; rfl
    simp only [State.response, hhead]
    cases outcomeOf o d <;> rfl
  case unknown =>
    have hout : outcomeOf o d = none := by rw [outcomeOf, if_neg h1, if_neg h2, if_neg h3]
    simp only [State.response, hout]
    rfl
  case differs =>
    have hmatch : ¬ (k = e.order.code ∧ hi ++ lo = e.ref) := fun h => hne.elim (fun h' => h' h.1) fun h' => h' h.2
    simp only [State.response, headEntry_of_answering he]
    cases outcomeOf o d with
    | none => rfl
    | some x => exact congrArg Host.Outcome.next (if_neg hmatch)

/-- Settles O39. -/
theorem retryRestsTheEntryUntilItsDeadline : Obligations.RetryRestsTheEntryUntilItsDeadline := by
  refine ⟨fun s a b e r d ha hs ho hr => ⟨fun tries ht => ?rests, fun ht why h2 h3 => ?fourth⟩,
    fun s a b e d hn ho hst hd => ?due, fun s i h => ?notDue⟩
  case rests =>
    have hlt : e.tries.val < 3 := by have := tries.isLt; omega
    have htries : (⟨e.tries.val + 1, by omega⟩ : Fin 4) = tries := Fin.ext ht.symm
    rw [exec_retry ha]
    simp only [State.retried, hr, dif_pos hlt]
    rw [updEntry_split hs.1 ho, htries]
  case fourth =>
    have hlt : ¬ e.tries.val < 3 := by rw [ht]; decide
    rw [exec_retry ha, exec_refused ha h2, beq_eq_false_iff_ne.2 h3]
    simp only [State.retried, hr, dif_neg hlt]
  case due =>
    have hentry : s.entry? e.slot = some e := entry?_eq hn (by rw [ho]; simp)
    show Host.Outcome.next (match s.entry? e.slot with | some e => _ | none => s) = _
    simp only [hentry, hst, (expired_iff s.tick d).2 hd, if_true]
    rw [updEntry_split hn ho]
  case notDue =>
    show Host.Outcome.next (match s.entry? i with | some e => _ | none => s) = _
    cases he : s.entry? i with
    | none => rfl
    | some e =>
      obtain ⟨hi, hmem⟩ := entry?_slot he
      cases hst : e.state with
      | resting d => simp only [hst, not_expired (h e hmem hi d hst), Bool.false_eq_true, if_false]
      | waiting | sent => simp only [hst]

end Sys2Proof
end

section
/-! PROOFS. Retirement, exactly (R15, R16): what it takes out of the holders, and what the positions show. -/

namespace Sys2Proof.Machine

/-! ### Folds over loops, position by position -/

/-- The loops at one position among pairs of position and loop. -/
def loopsOf (xs : List (Pos × LoopNo)) (p : Pos) : List LoopNo := (xs.filter fun x => x.1 = p).map Prod.snd

theorem loopsAt_eq (r : Record) (p : Pos) : r.loopsAt p = loopsOf r.loops p := rfl

theorem mem_loopsOf {xs : List (Pos × LoopNo)} {p : Pos} {l : LoopNo} : l ∈ loopsOf xs p ↔ (p, l) ∈ xs := by
  simp [loopsOf]

/-- A fold that changes one position at a time, in states that keep a property. -/
theorem pos_foldl_updPos {P : State → Prop} {g : State → Pos × LoopNo → State} {f : LoopNo → Position → Position}
    (hg : ∀ t x, P t → g t x = t.updPos x.1 (f x.2)) (hP : ∀ t p q, P t → P (t.updPos p q)) (p : Pos) :
    ∀ (xs : List (Pos × LoopNo)) (s : State), P s →
      (xs.foldl g s).pos p = (loopsOf xs p).foldl (fun q l => f l q) (s.pos p)
  | [], _, _ => rfl
  | x :: xs, s, hs => by
    have hnext : P (g s x) := by rw [hg s x hs]; exact hP _ _ _ hs
    rw [List.foldl_cons, pos_foldl_updPos hg hP p xs _ hnext, hg s x hs, pos_updPos, loopsOf, loopsOf]
    by_cases hx : x.1 = p
    · rw [if_pos hx, List.filter_cons_of_pos (by simpa using hx), List.map_cons, List.foldl_cons, ← hx]
    · rw [if_neg hx, List.filter_cons_of_neg (by simpa using hx)]

theorem keepAlerts_keepAlerts (q : Position) (k k' : Alert → Bool) :
    (q.keepAlerts k).keepAlerts k' = q.keepAlerts fun a => k a && k' a := by
  have hfilter : (q.alerts.filter k).filter k' = q.alerts.filter fun a => k a && k' a := by
    rw [List.filter_filter]
    exact List.filter_congr fun a _ => Bool.and_comm _ _
  have heq (q : Position) (k : Alert → Bool) : q.keepAlerts k = { q with
      alerts := q.alerts.filter k
      toneRepeat := if q.alerts.any q.sounding && !(q.alerts.filter k).any q.sounding then none else q.toneRepeat } := rfl
  have hsound : (q.keepAlerts k).sounding = q.sounding := rfl
  have hfewer (xs : List Alert) (keep : Alert → Bool) : (xs.filter keep).any q.sounding = true → xs.any q.sounding = true :=
    fun hc => by
      obtain ⟨a, ha, hm⟩ := List.any_eq_true.1 hc
      exact List.any_eq_true.2 ⟨a, (List.mem_filter.1 ha).1, hm⟩
  have hbetween := hfewer q.alerts k
  have hafter := hfewer (q.alerts.filter k) k'
  rw [hfilter] at hafter
  rw [heq (q.keepAlerts k) k', hsound, heq q k, heq q fun a => k a && k' a]
  simp only [hfilter]
  congr 1
  generalize q.alerts.any q.sounding = before at hbetween ⊢
  generalize (q.alerts.filter k).any q.sounding = between at hbetween hafter ⊢
  generalize (q.alerts.filter fun a => k a && k' a).any q.sounding = after at hafter ⊢
  cases before with
  | false => rw [Bool.eq_false_iff.2 fun hc => nomatch hbetween hc] at *; rfl
  | true =>
    cases between with
    | false => rw [Bool.eq_false_iff.2 fun hc => nomatch hafter hc]; rfl
    | true => rfl

/-- Several loops of a position made IDLE. -/
theorem foldl_idle (ls : List LoopNo) (q : Position) :
    ls.foldl (fun q l => (q.setLoop l .idle).dropLoopAlert l) q =
      ({ q with loops := ls.foldl (fun v (l : LoopNo) => v.set l .idle) q.loops } : Position).keepAlerts
        fun a => ls.all fun l => a.loop != some l := by
  induction ls generalizing q with
  | nil =>
    unfold Position.keepAlerts
    simp
  | cons l ls ih =>
    rw [List.foldl_cons, ih]
    show (({ q with loops := ls.foldl (fun v (l : LoopNo) => v.set l .idle) (q.loops.set l .idle) } : Position).keepAlerts
      fun a => a.loop != some l).keepAlerts _ = _
    rw [keepAlerts_keepAlerts]
    rfl

/-! ### Alerts at several loops of a position -/

theorem Position.raiseLoop_settings (q : Position) (now : Tick) (k : AlertKind) (l : LoopNo) :
    q.sameSettings (q.raiseLoop now k l) ∧ (q.raiseLoop now k l).loops = q.loops ∧ (q.raiseLoop now k l).note = q.note := by
  rw [raiseLoop_eq]
  exact ⟨⟨rfl, rfl, rfl, rfl, rfl, rfl, rfl, rfl, rfl, rfl⟩, rfl, rfl⟩

/-- The tones that the same alert at several loops adds to a transmit queue (R156). -/
def raisedAll (q : Position) (k : AlertKind) (n : Nat) : List TxEntry :=
  if (q.state = .opened ∨ q.state = .withdrawn) ∧ q.latchMask.getLsbD k.bit = true ∧ q.toneMask.getLsbD k.bit = true then
    List.replicate (min n (4 - (q.txq.filter TxEntry.isTone).length)) (.tone k.tone)
  else []

theorem raisedAll_succ (q : Position) (now : Tick) (k : AlertKind) (l : LoopNo) (n : Nat) :
    raisedTones q k ++ raisedAll (q.raiseLoop now k l) k n = raisedAll q k (n + 1) := by
  rw [raiseLoop_eq]
  unfold raisedAll raisedTones
  simp only
  by_cases h : (q.state = .opened ∨ q.state = .withdrawn) ∧ q.latchMask.getLsbD k.bit = true ∧ q.toneMask.getLsbD k.bit = true
  · obtain ⟨hst, hl, ht⟩ := id h
    rw [if_pos h, if_pos h]
    by_cases hlt : (q.txq.filter TxEntry.isTone).length < 4
    · have hmin : min (n + 1) (4 - (q.txq.filter TxEntry.isTone).length) =
          min n (4 - ((q.txq ++ [TxEntry.tone k.tone]).filter TxEntry.isTone).length) + 1 := by
        have htone : ([TxEntry.tone k.tone].filter TxEntry.isTone).length = 1 := rfl
        rw [List.filter_append, List.length_append, htone]
        omega
      rw [if_pos ⟨⟨hst, hl⟩, ht, hlt⟩, hmin, List.replicate_succ]
      rfl
    · rw [if_neg fun hc => hlt hc.2.2, List.append_nil, List.nil_append, show 4 - (q.txq.filter TxEntry.isTone).length = 0 by omega,
        Nat.min_zero, Nat.min_zero]
  · rw [if_neg h, if_neg h, if_neg fun hc => h ⟨hc.1.1, hc.1.2, hc.2.1⟩]
    rfl

/-- The same alert raised at several loops of a position: what it shows, and its tones. -/
theorem foldl_raiseLoop {s : State} {p : Pos} (k : AlertKind) (ls : List LoopNo) (q : Position) (hset : (s.pos p).sameSettings q) :
    let q' := ls.foldl (fun q l => q.raiseLoop s.tick k l) q
    (s.pos p).sameSettings q' ∧ q'.loops = q.loops ∧ q'.note = q.note ∧
      (⟨q'.alerts, q'.toneRepeat⟩ : AlertView) = ls.foldl (fun a l => s.viewRaised p k l a) ⟨q.alerts, q.toneRepeat⟩ ∧
      q'.txq = q.txq ++ raisedAll q k ls.length := by
  induction ls generalizing q with
  | nil =>
    refine ⟨hset, rfl, rfl, rfl, ?_⟩
    rw [raisedAll]
    simp
  | cons l ls ih =>
    obtain ⟨hset1, hloops1, hnote1⟩ := Position.raiseLoop_settings q s.tick k l
    obtain ⟨h1, h2, h3, h4, h5⟩ := ih (q.raiseLoop s.tick k l) (hset.trans hset1)
    have hview : (⟨(q.raiseLoop s.tick k l).alerts, (q.raiseLoop s.tick k l).toneRepeat⟩ : AlertView) =
        s.viewRaised p k l ⟨q.alerts, q.toneRepeat⟩ := by
      obtain ⟨hstate, -, -, hlatch, htone, -⟩ := hset
      rw [raiseLoop_eq]
      simp only [State.viewRaised, alertsAfter, State.repeatRaised, hstate, hlatch, htone]
    refine ⟨h1, h2.trans hloops1, h3.trans hnote1, h4.trans (by rw [hview]; rfl), h5.trans ?_⟩
    have htxq : (q.raiseLoop s.tick k l).txq = q.txq ++ raisedTones q k := by rw [raiseLoop_eq]
    rw [htxq, List.append_assoc, raisedAll_succ, List.length_cons]

/-- The note that several notes leave: the last. -/
theorem foldl_note (f : LoopNo → Note) (ls : List LoopNo) (q : Position) :
    ls.foldl (fun q l => { q with note := some (f l) }) q = { q with note := match ls.getLast? with
      | some l => some (f l)
      | none => q.note } := by
  induction ls generalizing q with
  | nil => rfl
  | cons l ls ih =>
    rw [List.foldl_cons, ih]
    cases ls with
    | nil => rfl
    | cons m ls =>
      rw [List.getLast?_cons_cons]
      cases h : (m :: ls).getLast? with
      | none => simp at h
      | some x => rfl

/-! ### The holders (R15) -/

/-- What a departing call leaves in the queue, the orbits and the camp-on table. -/
def State.letOut (s : State) (i : Slot) (r : Record) : State :=
  { s with
    queue := if r.loc = .queued then s.queue.filter (fun j => j != i) else s.queue
    orbits := (s.freeOrbits i).orbits
    camp := match r.loc with
      | .camped _ => campWithout s.camp i
      | _ => s.camp }

theorem freeOrbits_freeOrbits (s : State) (i : Slot) : (s.freeOrbits i).freeOrbits i = s.freeOrbits i := by
  refine congrArg (fun os => { s with orbits := os }) ?_
  show (s.orbits.map _).map _ = _
  rw [Vector.map_map]
  refine congrArg (fun f => s.orbits.map f) (funext fun o => ?_)
  show (if Orbit.names (if o.names i then .empty else o) i then Orbit.empty else (if o.names i then .empty else o)) = _
  by_cases h : o.names i = true
  · rw [if_pos h]; rfl
  · rw [if_neg h, if_neg h]

theorem loopIdle_loopIdle (s : State) (p : Pos) (l : LoopNo) : (s.loopIdle p l).loopIdle p l = s.loopIdle p l := by
  unfold State.loopIdle
  rw [updPos_updPos]
  refine congrArg (s.updPos p) (funext fun q => ?_)
  show ((((q.setLoop l .idle).setLoop l .idle).dropLoopAlert l).dropLoopAlert l) = _
  unfold Position.dropLoopAlert
  rw [keepAlerts_keepAlerts]
  simp only [Bool.and_self, Position.setLoop, Vector.set_set]

/-- The loops of a departing call are IDLE, whichever of them was its holder. -/
theorem foldl_loopIdle_left {s : State} {i : Slot} {r : Record} (h : s.slot i = .live r) :
    r.loops.foldl (fun t pl => t.loopIdle pl.1 pl.2) ((s.leaveHolder i).freeOrbits i) =
      r.loops.foldl (fun t pl => t.loopIdle pl.1 pl.2) (s.letOut i r) := by
  unfold State.leaveHolder State.letOut
  simp only [(record?_eq_some s i).2 h]
  cases hl : r.loc with
  | queued => rfl
  | parked o =>
    refine congrArg (r.loops.foldl _) ?_
    exact freeOrbits_freeOrbits s i
  | camped ext => rfl
  | extended ext => rfl
  | rescue m => rfl
  | loop p l =>
    have hloops : r.loops = (p, l) :: ((match r.mark with | some pl => [pl] | none => []) ++
        (match r.claim with | some c => [(c.pos, c.loop)] | none => [])) := by
      unfold Record.loops
      rw [hl]
      rfl
    rw [hloops, List.foldl_cons, List.foldl_cons]
    refine congrArg (List.foldl _ · _) ?_
    exact loopIdle_loopIdle (s.freeOrbits i) p l

/-! ### Retirement, exactly -/

/-- The call after its caller's departure: notes, holders and loops (R15, R16). -/
def State.departed (s : State) (i : Slot) (r : Record) (gone : Bool) : State :=
  r.loops.foldl (fun t pl => t.loopIdle pl.1 pl.2)
    ((if gone then r.loops.foldl (fun t pl => t.noteFor pl.1 pl.2 (some i) AlertKind.callerGone.text) s else s).letOut i r)

theorem departed_frame (s : State) (i : Slot) (r : Record) (gone : Bool) :
    s.departed i r gone = { s.letOut i r with positions := (s.departed i r gone).positions } := by
  unfold State.departed
  rw [foldl_loopIdle_frame]
  cases gone with
  | false => rfl
  | true =>
    have hnote := foldl_positions (fun (t : State) (pl : Pos × LoopNo) => t.noteFor pl.1 pl.2 (some i) AlertKind.callerGone.text)
      (fun _ _ => rfl) r.loops s
    simp only [if_true]
    rw [hnote]
    rfl

theorem retire_live {s : State} {i : Slot} {r : Record} (h : s.slot i = .live r) (gone : Bool) :
    s.retire i gone =
      (let freed := (s.departed i r gone).freeSlot i r.ref
      if gone then r.loops.foldl (fun t pl => t.raiseLoop pl.1 .callerGone pl.2) freed else freed) := by
  have hnoted : (if gone then r.loops.foldl (fun t (pl : Pos × LoopNo) => t.noteFor pl.1 pl.2 (some i) AlertKind.callerGone.text) s
      else s).slot i = .live r := by
    split
    · rw [foldl_positions (fun (t : State) (pl : Pos × LoopNo) => t.noteFor pl.1 pl.2 (some i) AlertKind.callerGone.text)
        (fun _ _ => rfl) r.loops s]
      exact h
    · exact h
  unfold State.retire State.departed
  simp only [(record?_eq_some s i).2 h]
  rw [foldl_loopIdle_left hnoted]

/-- The slot and the order list after a retirement (R15). -/
theorem retire_frame {s : State} {i : Slot} {r : Record} (h : s.slot i = .live r) (gone : Bool) :
    s.retire i gone = { (s.letOut i r).freeSlot i r.ref with positions := (s.retire i gone).positions } := by
  have hfreed : (s.departed i r gone).freeSlot i r.ref =
      { (s.letOut i r).freeSlot i r.ref with positions := (s.departed i r gone).positions } := by
    rw [departed_frame]
    generalize (s.departed i r gone).positions = ps
    have hentry : State.entry? { s.letOut i r with positions := ps } i = (s.letOut i r).entry? i := rfl
    unfold State.freeSlot
    rw [hentry]
    cases (s.letOut i r).entry? i with
    | none => rfl
    | some e =>
      show (if e.isSent = true then _ else _) = { (if e.isSent = true then _ else _ : State) with positions := ps }
      cases e.isSent <;> rfl
  rw [retire_live h]
  cases gone with
  | false =>
    simp only [Bool.false_eq_true, if_false]
    rw [hfreed]
  | true =>
    simp only [if_true]
    rw [foldl_positions (fun (t : State) (pl : Pos × LoopNo) => t.raiseLoop pl.1 .callerGone pl.2) (fun _ _ => rfl), hfreed]

theorem retire_settled {s : State} {i : Slot} {r : Record} (h : s.settled i r) (gone : Bool) :
    s.retire i gone = { s.letOut i r with
      slots := s.slots.set i .free, positions := (s.retire i gone).positions } := by
  have hentry : (s.letOut i r).entry? i = none := by
    have hnone : s.entry? i = none := by simpa [State.entry?] using h.2
    exact hnone
  have hframe := retire_frame h.1 gone
  rw [State.freeSlot, hentry] at hframe
  exact hframe

/-- The positions after a retirement (R16, R159): the loops' notes, the loops IDLE, then their alerts. -/
theorem pos_retire {s : State} {i : Slot} {r : Record} (h : s.slot i = .live r) (gone : Bool) (p : Pos) :
    (s.retire i gone).pos p =
      (let ls := r.loopsAt p
      let noted := if gone then
        ls.foldl (fun q l => { q with note := some ⟨s.tagLine (some i) l, AlertKind.callerGone.text⟩ }) (s.pos p) else s.pos p
      let idle := ls.foldl (fun q l => (q.setLoop l .idle).dropLoopAlert l) noted
      if gone then ls.foldl (fun q l => q.raiseLoop s.tick .callerGone l) idle else idle) := by
  have hnote : (r.loops.foldl (fun t (pl : Pos × LoopNo) => t.noteFor pl.1 pl.2 (some i) AlertKind.callerGone.text) s).pos p =
      (r.loopsAt p).foldl (fun q l => { q with note := some ⟨s.tagLine (some i) l, AlertKind.callerGone.text⟩ }) (s.pos p) := by
    refine pos_foldl_updPos (P := fun t => t.slots = s.slots ∧ t.tenants = s.tenants)
      (f := fun l q => { q with note := some ⟨s.tagLine (some i) l, AlertKind.callerGone.text⟩ }) (fun t x ht => ?_)
      (fun _ _ _ ht => ht) p r.loops s ⟨rfl, rfl⟩
    show t.noteFor _ _ _ _ = _
    rw [State.noteFor, tagLine_congr (slot_of_slots ht.1 i) ht.2]
  have hidle (t : State) : (r.loops.foldl (fun t (pl : Pos × LoopNo) => t.loopIdle pl.1 pl.2) t).pos p =
      (r.loopsAt p).foldl (fun q l => (q.setLoop l .idle).dropLoopAlert l) (t.pos p) :=
    pos_foldl_updPos (P := fun _ => True) (f := fun l q => (q.setLoop l .idle).dropLoopAlert l) (fun _ _ _ => rfl)
      (fun _ _ _ _ => trivial) p r.loops t trivial
  have hraise (t : State) (ht : t.tick = s.tick) :
      (r.loops.foldl (fun t (pl : Pos × LoopNo) => t.raiseLoop pl.1 .callerGone pl.2) t).pos p =
      (r.loopsAt p).foldl (fun q l => q.raiseLoop s.tick .callerGone l) (t.pos p) := by
    refine pos_foldl_updPos (P := fun t => t.tick = s.tick) (f := fun l q => q.raiseLoop s.tick .callerGone l)
      (fun t x ht => ?_) (fun _ _ _ ht => ht) p r.loops t ht
    show t.raiseLoop _ _ _ = _
    rw [State.raiseLoop, ht]
  have hfreePos (t : State) : (t.freeSlot i r.ref).pos p = t.pos p := by
    obtain ⟨e, -, -, hf⟩ | ⟨e, -, -, hf⟩ | ⟨-, hf⟩ := freeSlot_cases t i r.ref <;> rw [hf] <;> rfl
  have hfreeTick : ((s.departed i r gone).freeSlot i r.ref).tick = s.tick := by
    have htick : (s.departed i r gone).tick = s.tick := by rw [departed_frame]; rfl
    obtain ⟨e, -, -, hf⟩ | ⟨e, -, -, hf⟩ | ⟨-, hf⟩ := freeSlot_cases (s.departed i r gone) i r.ref <;> rw [hf] <;> exact htick
  rw [retire_live h]
  cases gone with
  | false =>
    simp only [Bool.false_eq_true, if_false]
    rw [hfreePos, State.departed, hidle]
    rfl
  | true =>
    simp only [if_true]
    rw [hraise _ hfreeTick, hfreePos, State.departed, hidle]
    have hlet (t : State) : (t.letOut i r).pos p = t.pos p := rfl
    rw [if_pos rfl, hlet, hnote]

end Sys2Proof.Machine
end

section
/-! PROOFS. Calls that go: CLEARED, NO_CALL, the responses of RETIRING slots, and the destination's changes (R15 to R18, R96, R131). -/

namespace Sys2Proof.Machine

/-! ### The camp-on lists -/

/-- The calls of an extension's list in a camp-on table. -/
def campCalls (camp : List CampEntry) (ext : Digits) : List Slot :=
  match camp.find? fun e => e.ext == ext with
  | some e => e.calls
  | none => []

theorem campedOn_eq (s : State) (ext : Digits) : s.campedOn ext = campCalls s.camp ext := rfl

theorem campCalls_cons (e : CampEntry) (camp : List CampEntry) (ext : Digits) :
    campCalls (e :: camp) ext = if e.ext = ext then e.calls else campCalls camp ext := by
  unfold campCalls
  by_cases h : e.ext = ext
  · rw [List.find?_cons_of_pos (by simpa using h), if_pos h]
  · rw [List.find?_cons_of_neg (by simpa using h), if_neg h]

theorem campCalls_absent {camp : List CampEntry} {ext : Digits} (h : ext ∉ camp.map CampEntry.ext) : campCalls camp ext = [] := by
  have hnone : (camp.find? fun e => e.ext == ext) = none :=
    List.find?_eq_none.2 fun e he hc => h (List.mem_map.2 ⟨e, he, by simpa using hc⟩)
  rw [campCalls, hnone]

theorem campWithout_exts (camp : List CampEntry) (i : Slot) :
    ∀ x ∈ (campWithout camp i).map CampEntry.ext, x ∈ camp.map CampEntry.ext := by
  intro x hx
  obtain ⟨e, he, rfl⟩ := List.mem_map.1 hx
  obtain ⟨e', he', rfl⟩ := List.mem_map.1 (List.mem_filter.1 he).1
  exact List.mem_map.2 ⟨e', he', rfl⟩

/-- Each list is as before without the call, and an entry left empty is no entry (R115). -/
theorem campCalls_without (i : Slot) (ext : Digits) : ∀ {camp : List CampEntry}, (camp.map CampEntry.ext).Nodup →
    campCalls (campWithout camp i) ext = (campCalls camp ext).filter fun j => j != i
  | [], _ => rfl
  | e :: camp, hn => by
    obtain ⟨he, hn⟩ := List.nodup_cons.1 hn
    have ih := campCalls_without i ext hn
    have hcons : campWithout (e :: camp) i =
        if (e.calls.filter fun j => j != i) = [] then campWithout camp i
        else { e with calls := e.calls.filter fun j => j != i } :: campWithout camp i := by
      unfold campWithout
      rw [List.map_cons]
      by_cases h : (e.calls.filter fun j => j != i) = []
      · rw [if_pos h, List.filter_cons_of_neg (by simp only [h]; decide)]
      · rw [if_neg h, List.filter_cons_of_pos (by simpa using h)]
    rw [campCalls_cons, hcons]
    by_cases hx : e.ext = ext
    · subst hx
      rw [if_pos rfl]
      split
      · next hempty => rw [hempty, campCalls_absent fun hc => he (campWithout_exts camp i _ hc)]
      · rw [campCalls_cons, if_pos rfl]
    · rw [if_neg hx]
      split
      · exact ih
      · rw [campCalls_cons, if_neg hx, ih]

theorem campLeft_of_without {s u : State} {i : Slot} (h : u.camp = campWithout s.camp i) : s.campLeft u i := by
  refine ⟨?_, fun hn ext => ?_⟩
  · rw [h, campWithout]
    exact List.filter_congr fun e _ => by cases e.calls <;> rfl
  · rw [campedOn_eq, campedOn_eq, h, campCalls_without i ext hn]

/-! ### What a retirement takes and shows -/

theorem idled_loops (ls : List LoopNo) (v : Vector LoopState 6) (m : LoopNo) :
    (ls.foldl (fun v (l : LoopNo) => v.set l .idle) v)[m] = if m ∈ ls then .idle else v[m] := by
  induction ls generalizing v with
  | nil => simp
  | cons l ls ih =>
    rw [List.foldl_cons, ih]
    by_cases hm : m ∈ ls
    · rw [if_pos hm, if_pos (List.mem_cons_of_mem _ hm)]
    · rw [if_neg hm]
      by_cases hl : m = l
      · subst hl
        rw [if_pos List.mem_cons_self]
        simp
      · rw [if_neg (by simp [hm, hl])]
        exact Vector.getElem_set_ne _ _ fun hc => hl (Fin.ext hc.symm)

theorem noted_eq (s : State) (i : Slot) (ls : List LoopNo) (q : Position) :
    ∃ n, ls.foldl (fun q l => { q with note := some ⟨s.tagLine (some i) l, AlertKind.callerGone.text⟩ }) q = { q with note := n } :=
  ⟨_, foldl_note (fun l => ⟨s.tagLine (some i) l, AlertKind.callerGone.text⟩) ls q⟩

theorem viewKept_of_keepAlerts {s : State} {p : Pos} {q : Position} (hset : (s.pos p).sameSettings q) (keep : Alert → Bool) :
    (⟨(q.keepAlerts keep).alerts, (q.keepAlerts keep).toneRepeat⟩ : AlertView) = s.viewKept p keep ⟨q.alerts, q.toneRepeat⟩ := by
  obtain ⟨-, -, -, -, htone, -⟩ := hset
  unfold State.viewKept
  refine congrArg₂ AlertView.mk rfl ?_
  refine (if_congr (sounding_filter_iff q keep) rfl rfl).trans ?_
  rw [htone]

/-- The loops and settings of a position after a retirement. -/
theorem retire_loops {s : State} {i : Slot} {r : Record} (h : s.slot i = .live r) (gone : Bool) (p : Pos) :
    (∀ l, (s.retire i gone).loop p l = if (p, l) ∈ r.loops then .idle else s.loop p l) ∧
      (s.pos p).sameSettings ((s.retire i gone).pos p) := by
  obtain ⟨n, hn⟩ : ∃ n, (if gone then (r.loopsAt p).foldl
      (fun q l => { q with note := some ⟨s.tagLine (some i) l, AlertKind.callerGone.text⟩ }) (s.pos p) else s.pos p) =
      { s.pos p with note := n } := by
    split
    · exact noted_eq s i (r.loopsAt p) (s.pos p)
    · exact ⟨_, rfl⟩
  have hpos := pos_retire h gone p
  simp only [hn, foldl_idle] at hpos
  generalize hq : ({ s.pos p with
    note := n, loops := (r.loopsAt p).foldl (fun v (l : LoopNo) => v.set l .idle) (s.pos p).loops } : Position).keepAlerts
      (fun a => (r.loopsAt p).all fun l => a.loop != some l) = q at hpos
  have hset : (s.pos p).sameSettings q := by rw [← hq]; exact ⟨rfl, rfl, rfl, rfl, rfl, rfl, rfl, rfl, rfl, rfl⟩
  have hloops : q.loops = (r.loopsAt p).foldl (fun v (l : LoopNo) => v.set l .idle) (s.pos p).loops := by rw [← hq]; rfl
  obtain ⟨hset', hloops', -, -, -⟩ := foldl_raiseLoop AlertKind.callerGone (r.loopsAt p) q hset
  have hboth : (s.pos p).sameSettings ((s.retire i gone).pos p) ∧ ((s.retire i gone).pos p).loops = q.loops := by
    rw [hpos]
    split
    · exact ⟨hset', hloops'⟩
    · exact ⟨hset, rfl⟩
  refine ⟨fun l => ?_, hboth.1⟩
  rw [State.loop, hboth.2, hloops, idled_loops, loopsAt_eq]
  exact if_congr mem_loopsOf rfl rfl

theorem retire_holders_of {s : State} {i : Slot} {r : Record} (h : s.slot i = .live r) (gone : Bool) :
    (s.retire i gone).queue = (s.letOut i r).queue ∧ (s.retire i gone).orbits = (s.freeOrbits i).orbits ∧
      (s.retire i gone).camp = (s.letOut i r).camp := by
  have hframe := retire_frame h gone
  generalize (s.retire i gone).positions = ps at hframe
  rw [hframe]
  obtain ⟨e, -, -, hf⟩ | ⟨e, -, -, hf⟩ | ⟨-, hf⟩ := freeSlot_cases (s.letOut i r) i r.ref <;> rw [hf] <;> exact ⟨rfl, rfl, rfl⟩

/-- What a retirement takes out of the holders (R15, R16). -/
theorem retire_letGo {s : State} {i : Slot} {r : Record} (h : s.slot i = .live r) (gone : Bool) :
    s.letGo (s.retire i gone) i r := by
  obtain ⟨hqueue, horbits, hcamp⟩ := retire_holders_of h gone
  refine ⟨hqueue, fun o => ?_, fun ⟨y, hy⟩ => campLeft_of_without ?_, fun hy => ?_, fun p l => (retire_loops h gone p).1 l,
    fun p => (retire_loops h gone p).2⟩
  · rw [State.orbit, horbits]
    exact orbit_freed s i o
  · rw [hcamp, State.letOut, hy]
  · rw [hcamp, State.letOut]
    cases hl : r.loc with
    | camped y => exact absurd hl (hy y)
    | _ => rfl

/-- What the positions show after the caller has gone (R16, R159). -/
theorem retire_goneShown {s : State} {i : Slot} {r : Record} (h : s.slot i = .live r) : s.goneShown (s.retire i true) i r := by
  intro p
  have hpos := pos_retire h true p
  obtain ⟨n, hn, hfold⟩ : ∃ n, n = (match (r.loopsAt p).getLast? with
        | some l => some (⟨s.tagLine (some i) l, AlertKind.callerGone.text⟩ : Note)
        | none => (s.pos p).note) ∧
      (r.loopsAt p).foldl (fun q l => { q with note := some ⟨s.tagLine (some i) l, AlertKind.callerGone.text⟩ }) (s.pos p) =
        { s.pos p with note := n } :=
    ⟨_, rfl, foldl_note (fun l => ⟨s.tagLine (some i) l, AlertKind.callerGone.text⟩) (r.loopsAt p) (s.pos p)⟩
  simp only [if_true, hfold, foldl_idle] at hpos
  generalize hq : ({ s.pos p with
    note := n, loops := (r.loopsAt p).foldl (fun v (l : LoopNo) => v.set l .idle) (s.pos p).loops } : Position).keepAlerts
      (fun a => (r.loopsAt p).all fun l => a.loop != some l) = q at hpos
  have hset : (s.pos p).sameSettings q := by rw [← hq]; exact ⟨rfl, rfl, rfl, rfl, rfl, rfl, rfl, rfl, rfl, rfl⟩
  have hview : (⟨q.alerts, q.toneRepeat⟩ : AlertView) =
      s.viewKept p (fun a => (r.loopsAt p).all fun l => a.loop != some l) (s.view p) := by
    rw [← hq]
    exact viewKept_of_keepAlerts (q := { s.pos p with
      note := n, loops := (r.loopsAt p).foldl (fun v (l : LoopNo) => v.set l .idle) (s.pos p).loops })
      ⟨rfl, rfl, rfl, rfl, rfl, rfl, rfl, rfl, rfl, rfl⟩ _
  have htxq : q.txq = (s.pos p).txq := by rw [← hq]; rfl
  have hqnote : q.note = n := by rw [← hq]; rfl
  obtain ⟨-, -, hnote', hview', htxq'⟩ := foldl_raiseLoop AlertKind.callerGone (r.loopsAt p) q hset
  refine ⟨fun hno => ?_, ?_, ?_, ?_⟩
  · rw [pos_retire h true p, hno]
    rfl
  · rw [State.view, hpos]
    rw [hview', hview]
    rfl
  · refine (congrArg Position.note hpos).trans ((hnote'.trans hqnote).trans (hn.trans ?_))
    cases (r.loopsAt p).getLast? <;> rfl
  · rw [hpos, htxq', htxq]
    obtain ⟨hstate, -, -, hlatch, htone, -⟩ := hset
    rw [raisedAll, hstate, hlatch, htone, htxq]
    rfl

/-- The slot and the order list after a retirement, by the send window (R15, R127). -/
theorem freeSlot_ordered {s : State} (hs : s.ordersOk) (i : Slot) (ref : CallRef) : s.freeSlot i ref = { s with
    slots := s.slots.set i (if i ∈ s.window then .retiring ref else .free)
    orders := s.orders.filter fun e => e.slot != i || e.isSent } := by
  obtain ⟨hn, -, hwindow, -, -⟩ := hs
  have hkept (h : ∀ e ∈ s.orders, e.slot = i → e.isSent = true) : (s.orders.filter fun e => e.slot != i || e.isSent) = s.orders :=
    List.filter_eq_self.2 fun e he => by
      by_cases hi : e.slot = i
      · rw [h e he hi, Bool.or_true]
      · rw [bne_iff_ne.2 hi, Bool.true_or]
  have hout (h : ∀ e ∈ s.orders, e.slot = i → e.isSent = false) : i ∉ s.window := fun hc => by
    obtain ⟨e, he, hi, hsent⟩ := (hwindow i).1 hc
    rw [h e he hi] at hsent
    cases hsent
  obtain ⟨e, he, hsent, hf⟩ | ⟨e, he, hsent, hf⟩ | ⟨he, hf⟩ := freeSlot_cases s i ref <;> rw [hf]
  · obtain ⟨hi, hmem⟩ := entry?_slot he
    have honly (e' : Entry) (he' : e' ∈ s.orders) (hi' : e'.slot = i) : e'.isSent = true :=
      entry_unique hn hmem he' (hi.trans hi'.symm) ▸ hsent
    rw [if_pos ((hwindow i).2 ⟨e, hmem, hi, hsent⟩), hkept honly]
    rfl
  · obtain ⟨hi, hmem⟩ := entry?_slot he
    have honly (e' : Entry) (he' : e' ∈ s.orders) (hi' : e'.slot = i) : e'.isSent = false :=
      entry_unique hn hmem he' (hi.trans hi'.symm) ▸ hsent
    have hfilter : (s.orders.filter fun e => e.slot != i || e.isSent) = s.orders.filter fun e => e.slot != i :=
      List.filter_congr fun e' he' => by
        by_cases hi' : e'.slot = i
        · rw [honly e' he' hi', Bool.or_false]
        · rw [bne_iff_ne.2 hi', Bool.true_or]
    have hwin : (s.window.filter fun j => j != i) = s.window :=
      List.filter_eq_self.2 fun j hj => bne_iff_ne.2 fun hc => hout honly (hc ▸ hj)
    rw [if_neg (hout honly), hfilter, State.dropEntry, hwin]
    rfl
  · have hnone : ∀ e ∈ s.orders, e.slot ≠ i := by simpa [State.entry?] using he
    rw [if_neg (hout fun e he hi => absurd hi (hnone e he)), hkept fun e he hi => absurd hi (hnone e he)]
    rfl

/-- A retirement in a state whose order list is sound. -/
theorem retire_ordered {s : State} {i : Slot} {r : Record} (hs : s.ordersOk) (h : s.slot i = .live r) (gone : Bool) :
    s.retire i gone = { s with
      slots := s.slots.set i (if i ∈ s.window then .retiring r.ref else .free)
      orders := s.orders.filter (fun e => e.slot != i || e.isSent)
      queue := (s.retire i gone).queue, orbits := (s.retire i gone).orbits, camp := (s.retire i gone).camp
      positions := (s.retire i gone).positions } := by
  have hframe := retire_frame h gone
  have hsame : (s.letOut i r).ordersOk := hs
  rw [freeSlot_ordered hsame] at hframe
  generalize (s.retire i gone).positions = ps at hframe
  rw [hframe]
  rfl

theorem isExtend_iff {x : LoopState} : x.isExtend = true ↔ ∃ j, x = .extend j := by
  cases x <;> simp [LoopState.isExtend]

/-! ### References (R3) -/

theorem byRef_live {s : State} (hs : s.refsOk) {i : Slot} {r : Record} (h : s.slot i = .live r) : s.byRef r.ref = some i := by
  have hholds : (s.slot i).holds r.ref = true := by rw [h]; exact beq_self_eq_true _
  cases hb : s.byRef r.ref with
  | none =>
    rw [byRef_eq_none hb i] at hholds
    cases hholds
  | some j => rw [hs.1 j i r.ref (List.find?_some (p := fun i => (s.slot i).holds r.ref) hb) hholds]

/-- What a reference resolves to: nothing LIVE, or the LIVE record that has it. -/
theorem byRef_cases (s : State) (ref : CallRef) :
    s.byRef ref = none ∨ (∃ i, s.byRef ref = some i ∧ s.record? i = none) ∨
      ∃ i r, s.byRef ref = some i ∧ s.slot i = .live r ∧ r.ref = ref := by
  cases hb : s.byRef ref with
  | none => exact .inl rfl
  | some i =>
    have hholds : (s.slot i).holds ref = true := List.find?_some (p := fun i => (s.slot i).holds ref) hb
    cases hx : s.slot i with
    | live r =>
      rw [hx] at hholds
      exact .inr (.inr ⟨i, r, rfl, hx, beq_iff_eq.1 hholds⟩)
    | free | retiring =>
      exact .inr (.inl ⟨i, rfl, (record?_eq_none s i).2 fun r hr => by rw [hx] at hr; cases hr⟩)

end Sys2Proof.Machine

namespace Sys2Proof
open Sys2Proof.Machine

/-- Settles O34. -/
theorem clearedRetiresTheCall : Obligations.ClearedRetiresTheCall := by
  have hexec (s : State) (hi lo : Byte) (hup : s.link = .up) : exec (.cleared [hi, lo]) s = .next (s.clearedCall (hi ++ lo)) :=
    congrArg Host.Outcome.next (if_pos hup)
  refine ⟨fun s i r hi lo hup hrefs hs hr href => ?_, fun s hi lo hup hno => ?_⟩
  · have hcleared : s.clearedCall (hi ++ lo) = (s.retire i true).finishAll := by
      simp only [State.clearedCall, href, byRef_live hrefs hr, (record?_eq_some s i).2 hr]
    exact ⟨s.retire i true, (hexec s hi lo hup).trans (by rw [hcleared]), retire_letGo hr true, retire_goneShown hr,
      retire_ordered hs hr true⟩
  · rw [hexec s hi lo hup]
    refine congrArg Host.Outcome.next ?_
    obtain hb | ⟨i, hb, hrec⟩ | ⟨i, r, hb, hr, href⟩ := byRef_cases s (hi ++ lo)
    · simp only [State.clearedCall, hb]
    · simp only [State.clearedCall, hb, hrec]
    · exact absurd href (hno i r hr)

/-- Settles O35. -/
theorem destinationChangesAreTaken : Obligations.DestinationChangesAreTaken := by
  intro s hi lo hup hrefs
  have hanswered : exec (.destStateAnswered [hi, lo, 1]) s = .next (((s.byRef (hi ++ lo)).map s.destAnswered).getD s) :=
    congrArg Host.Outcome.next (if_pos hup)
  have hcleared : exec (.destStateDestCleared [hi, lo, 2]) s = .next (((s.byRef (hi ++ lo)).map s.destCleared).getD s) :=
    congrArg Host.Outcome.next (if_pos hup)
  refine ⟨fun i r hr href => ⟨fun p l j hloc hl hstep => ?answered, fun ext hs hloc hloops => ?extended,
    fun p l j hset hloc hl hstep => ?cleared⟩, fun hno => ?noAnswer, fun hno => ?noClear, fun x h1 h2 => ?other⟩
  case answered =>
    have hdest : s.destAnswered i = ((s.setStep i 5).raiseLoop p .destAnswered l).refresh := by
      have hcond : ((s.loop p l).isExtend && r.step == 3) = true := by rw [hl, hstep]; rfl
      simp only [State.destAnswered, (record?_eq_some s i).2 hr, hloc, hcond, if_true]
    rw [setStep_live hr] at hdest
    refine ⟨_, hanswered.trans (by rw [← href, byRef_live hrefs hr, Option.map_some, Option.getD_some, hdest]), rfl, ?_⟩
    rw [← hl]
    exact ((State.workAt.refl s p l).of_positions (v := s.setSlot i (.live { r with step := 5 })) rfl).raiseLoop_first rfl _
  case extended =>
    have hdest : s.destAnswered i = (s.retire i false).finishAll := by
      simp only [State.destAnswered, (record?_eq_some s i).2 hr, hloc]
    refine ⟨s.retire i false, hanswered.trans (by rw [← href, byRef_live hrefs hr, Option.map_some, Option.getD_some, hdest]),
      retire_letGo hr false, ?_⟩
    have hframe := retire_ordered hs hr false
    have hpos : (s.retire i false).positions = s.positions := by
      have hnone : s.departed i r false = s.letOut i r := by
        rw [State.departed, hloops]
        rfl
      rw [retire_live hr, hnone]
      simp only [Bool.false_eq_true, if_false]
      obtain ⟨e, -, -, hf⟩ | ⟨e, -, -, hf⟩ | ⟨-, hf⟩ := freeSlot_cases (s.letOut i r) i r.ref <;> rw [hf] <;> rfl
    obtain ⟨hqueue, -, hcamp⟩ := retire_holders_of hr false
    rw [State.letOut, hloc] at hqueue hcamp
    rw [hqueue, hcamp, hpos] at hframe
    exact hframe
  case cleared =>
    have hdest : s.destCleared i = ((s.issue i (.connect p l) .none).setStep i 6).finishOrders := by
      have hcond : ((s.loop p l).isExtend && r.step == 5) = true := by rw [hl, hstep]; rfl
      simp only [State.destCleared, (record?_eq_some s i).2 hr, hloc, hcond, if_true, State.returnConnect]
    rw [issue_setStep hset] at hdest
    rw [hcleared, ← href, byRef_live hrefs hr, Option.map_some, Option.getD_some, hdest]
  case noAnswer =>
    rw [hanswered]
    refine congrArg Host.Outcome.next ?_
    obtain hb | ⟨i, hb, hrec⟩ | ⟨i, r, hb, hr, href⟩ := byRef_cases s (hi ++ lo)
    · rw [hb]; rfl
    · rw [hb, Option.map_some, Option.getD_some, State.destAnswered, hrec]
    · obtain ⟨hext, hstep⟩ := hno i r hr href
      rw [hb, Option.map_some, Option.getD_some, State.destAnswered, (record?_eq_some s i).2 hr]
      cases hloc : r.loc with
      | loop p l =>
        simp only [hloc]
        refine if_neg fun hc => ?_
        obtain ⟨he, h3⟩ := Bool.and_eq_true_iff.1 hc
        obtain ⟨j, hj⟩ := isExtend_iff.1 he
        exact hstep p l j hloc hj (beq_iff_eq.1 h3)
      | extended ext => exact absurd hloc (hext ext)
      | _ => simp only [hloc]
  case noClear =>
    rw [hcleared]
    refine congrArg Host.Outcome.next ?_
    obtain hb | ⟨i, hb, hrec⟩ | ⟨i, r, hb, hr, href⟩ := byRef_cases s (hi ++ lo)
    · rw [hb]; rfl
    · rw [hb, Option.map_some, Option.getD_some, State.destCleared, hrec]
    · rw [hb, Option.map_some, Option.getD_some, State.destCleared, (record?_eq_some s i).2 hr]
      cases hloc : r.loc with
      | loop p l =>
        simp only [hloc]
        refine if_neg fun hc => ?_
        obtain ⟨he, h5⟩ := Bool.and_eq_true_iff.1 hc
        obtain ⟨j, hj⟩ := isExtend_iff.1 he
        exact hno i r hr href p l j hloc hj (beq_iff_eq.1 h5)
      | _ => simp only [hloc]
  case other =>
    exact congrArg Host.Outcome.next ((if_pos hup).trans ((if_neg h1).trans (if_neg h2)))

/-- Settles O38. -/
theorem responsesForCallsThatAreGone : Obligations.ResponsesForCallsThatAreGone := by
  intro s e ha
  refine ⟨fun ref d hret c hc => ?retiring, fun r hr hrel => ?noCall⟩
  case retiring =>
    have hdead (a : Option Answer) :
        s.answered e a = State.finishAll { s.withoutEntry e.slot with slots := s.slots.set e.slot .free } := by
      have hslot : (s.withoutEntry e.slot).slot e.slot = .retiring ref := hret
      have hquiet := settle_quiet (u := (s.withoutEntry e.slot).setSlot e.slot .free) (i := e.slot)
        fun r' hr' => absurd hr' (free_of_set rfl r')
      have hset : { s.withoutEntry e.slot with slots := s.slots.set e.slot .free } =
        (s.withoutEntry e.slot).setSlot e.slot .free := rfl
      rw [hset]
      unfold State.answered
      rw [dropEntry_eq]
      generalize s.withoutEntry e.slot = u at *
      simp only [hslot, hquiet]
    simp only [List.mem_cons, List.not_mem_nil, or_false] at hc
    obtain rfl | rfl | rfl := hc
    · rw [exec_done ha, hdead]
    · by_cases hd : d = 2
      · subst hd
        rw [exec_noCall ha, hdead]
      · rw [exec_refused ha hd, hdead]
    · rw [exec_retry ha]
      simp only [State.retried, hret, hdead]
  case noCall =>
    have hsettled := dropEntry_settled hr
    have hunlocked : (s.withoutEntry e.slot).lockedRelease e r = false := by
      rw [State.lockedRelease]
      obtain hne | hnl := hrel
      · rw [beq_eq_false_iff_ne.2 hne, Bool.false_and]
      · cases hloc : r.loc with
        | loop p l =>
          have hx := hnl p l
          show (_ && (s.loop p l).isLocked) = false
          cases hl : s.loop p l with
          | locked j => exact absurd hl (hx j hloc)
          | _ => exact Bool.and_false _
        | _ => exact Bool.and_false _
    have hframe := retire_settled hsettled true
    have hanswer : s.answered e none = ((s.withoutEntry e.slot).retire e.slot true).finishAll := by
      have hlive := hsettled.1
      have hquiet := settle_quiet (u := (s.withoutEntry e.slot).retire e.slot true) (i := e.slot)
        fun r' hr' => absurd hr' (free_of_set (v := s) (by rw [hframe]; rfl) r')
      unfold State.answered
      rw [dropEntry_eq]
      generalize s.withoutEntry e.slot = u at *
      simp only [hlive, hunlocked, Bool.not_false, hquiet]
    refine ⟨_, (exec_noCall ha).trans (by rw [hanswer]), retire_letGo hsettled.1 true, retire_goneShown hsettled.1, ?_⟩
    generalize ((s.withoutEntry e.slot).retire e.slot true).positions = ps at hframe
    rw [hframe]
    rfl

end Sys2Proof
end

section
/-! PROOFS. The responses to the orders of calls with a claim, in TALK and in the extend sequence (R22, R78 to R82, R94 to R105). -/

namespace Sys2Proof.Machine

/-! ### Answers whose work leaves the call quiet -/

theorem quiet_live {u : State} {i : Slot} {r : Record} (h : u.slot i = .live r) (hc : r.claim = none) (hh : r.held = none) :
    ∀ r', u.slot i = .live r' → r'.claim = none ∧ r'.held = none := by
  intro r' hr'
  rw [h] at hr'
  cases hr'
  exact ⟨hc, hh⟩

theorem quiet_free {u : State} {i : Slot} (h : u.slot i = .free) : ∀ r', u.slot i = .live r' → r'.claim = none ∧ r'.held = none := by
  intro r' hr'
  rw [h] at hr'
  cases hr'

theorem done_quiet {s u : State} {e : Entry} {r : Record} {d : Byte} (ha : s.answering e) (hr : s.slot e.slot = .live r)
    (hu : (s.withoutEntry e.slot).ownerActs e.slot r e (.done d) = u)
    (hq : ∀ r', u.slot e.slot = .live r' → r'.claim = none ∧ r'.held = none) :
    exec (.responseDone (e.reply 1 d)) s = .next u.finishAll := by
  rw [exec_done ha, answered_quiet hr hu hq]

theorem refused_quiet {s u : State} {e : Entry} {r : Record} {d : Byte} (ha : s.answering e) (hr : s.slot e.slot = .live r)
    (hd : d ≠ 2) (hu : (s.withoutEntry e.slot).ownerActs e.slot r e (.refused (d == 3)) = u)
    (hq : ∀ r', u.slot e.slot = .live r' → r'.claim = none ∧ r'.held = none) :
    exec (.responseRefused (e.reply 2 d)) s = .next u.finishAll := by
  rw [exec_refused ha hd, answered_quiet hr hu hq]

theorem ownerActs_loop {r : Record} {p : Pos} {l : LoopNo} (hloc : r.loc = .loop p l) (u : State) (i : Slot) (e : Entry)
    (a : Answer) : u.ownerActs i r e a = u.loopAnswer p l i r e a := by
  unfold State.ownerActs
  rw [hloc]

/-! ### Work at one loop -/

/-- An alert raised at a loop of a state with the positions of another. -/
theorem workAt_raised {s v : State} (hv : v.positions = s.positions) (ht : v.tick = s.tick) (p : Pos) (l : LoopNo) (k : AlertKind) :
    s.workAt (v.raiseLoop p k l) p l (s.loop p l) (s.viewRaised p k l (s.view p)) (s.pos p).note (raisedTones (s.pos p) k) :=
  ((State.workAt.refl s p l).of_positions hv).raiseLoop_first ht k

theorem workAt_idled {s v : State} (hv : v.positions = s.positions) (p : Pos) (l : LoopNo) :
    s.workAt (v.loopIdle p l) p l .idle (s.viewWithout p l (s.view p)) (s.pos p).note [] :=
  ((State.workAt.refl s p l).of_positions hv).loopIdle

theorem workAt_set {s v : State} (hv : v.positions = s.positions) (p : Pos) (l : LoopNo) (x : LoopState) :
    s.workAt (v.setLoop p l x) p l x (s.view p) (s.pos p).note [] :=
  ((State.workAt.refl s p l).of_positions hv).setLoop x

/-- A loop IDLE with a note for its call. -/
theorem workAt_noted {s v : State} (hv : v.positions = s.positions) {i : Slot} (hslot : v.slot i = s.slot i)
    (htenants : v.tenants = s.tenants) (p : Pos) (l : LoopNo) (content : List Byte) :
    s.workAt ((v.noteFor p l (some i) content).loopIdle p l) p l .idle (s.viewWithout p l (s.view p))
      (some ⟨s.tagLine (some i) l, content⟩) [] := by
  have hwork := (((State.workAt.refl s p l).of_positions hv).noteFor l (some i) content).loopIdle
  rw [tagLine_congr hslot htenants] at hwork
  exact hwork

/-! ### Retirement at a loop, and elsewhere -/

theorem retire_quiet {s : State} {i : Slot} {r : Record} (h : s.settled i r) :
    s.retire i false = (r.loops.foldl (fun t pl => t.loopIdle pl.1 pl.2) (s.letOut i r)).setSlot i .free := by
  have hentry : (s.departed i r false).entry? i = none := by
    have hnone : s.entry? i = none := by simpa [State.entry?] using h.2
    rw [departed_frame]
    exact hnone
  rw [retire_live h.1]
  simp only [Bool.false_eq_true, if_false]
  rw [State.freeSlot, hentry]
  rfl

/-- The retirement of a call at its loop alone. -/
theorem retire_onLoop {s : State} {i : Slot} {r : Record} {p : Pos} {l : LoopNo} (h : s.settled i r) (hloc : r.loc = .loop p l)
    (hm : r.mark = none) (hc : r.claim = none) : s.retire i false = ((s.freeOrbits i).loopIdle p l).setSlot i .free := by
  have hloops : r.loops = [(p, l)] := by
    rw [Record.loops, hloc, hm, hc]
    rfl
  have hlet : s.letOut i r = s.freeOrbits i := by
    rw [State.letOut, hloc]
    rfl
  rw [retire_quiet h, hloops, hlet]
  rfl

/-- The retirement of a call at no loop. -/
theorem retire_offLoop {s : State} {i : Slot} {r : Record} (h : s.settled i r) (hloc : ∀ p l, r.loc ≠ .loop p l)
    (hm : r.mark = none) (hc : r.claim = none) : s.retire i false = (s.letOut i r).setSlot i .free := by
  have hloops : r.loops = [] := by
    rw [Record.loops, hm, hc]
    cases hl : r.loc with
    | loop p l => exact absurd hl (hloc p l)
    | _ => rfl
  rw [retire_quiet h, hloops]
  rfl

/-! ### Reservations (R110) -/

theorem reservation_some {s : State} {i : Slot} {o : OrbitNo} (h : ∀ x, s.orbit x = .reserved i ↔ x = o) :
    s.reservation i = some o := by
  rw [State.reservation]
  cases hf : (List.finRange 20).find? fun o => s.orbit o == .reserved i with
  | none =>
    have hno := List.find?_eq_none.1 hf o (List.mem_finRange o)
    exact absurd (beq_iff_eq.2 ((h o).2 rfl)) hno
  | some x => rw [(h x).1 (beq_iff_eq.1 (List.find?_some (p := fun o => s.orbit o == .reserved i) hf))]

theorem reservation_none {s : State} {i : Slot} (h : ∀ x, s.orbit x ≠ .reserved i) : s.reservation i = none :=
  List.find?_eq_none.2 fun x _ hc => h x (beq_iff_eq.1 hc)

/-- Either no orbit is reserved for a call, or the one reserved for it is found. -/
theorem reservation_cases {s : State} {i : Slot} (huniq : ∀ x y, s.orbit x = .reserved i → s.orbit y = .reserved i → x = y) :
    (s.reservation i = none ∧ ∀ x, s.orbit x ≠ .reserved i) ∨
      ∃ o, s.reservation i = some o ∧ ∀ x, s.orbit x = .reserved i ↔ x = o := by
  by_cases h : ∃ o, s.orbit o = .reserved i
  · obtain ⟨o, ho⟩ := h
    have hiff : ∀ x, s.orbit x = .reserved i ↔ x = o := fun x => ⟨fun hx => huniq x o hx ho, fun hx => hx ▸ ho⟩
    exact .inr ⟨o, reservation_some hiff, hiff⟩
  · have hno : ∀ x, s.orbit x ≠ .reserved i := fun x hx => h ⟨x, hx⟩
    exact .inl ⟨reservation_none hno, hno⟩

/-! ### The end of a claim (R22) -/

theorem claimDone_live {s : State} {i : Slot} {r : Record} (h : s.slot i = .live r) (c : Claim) :
    s.claimDone i c = ((s.leaveHolder i).setSlot i (.live { r with
      loc := .loop c.pos c.loop, claim := none, owner := some c.pos, timer := none, held := none })).setLoop c.pos c.loop
        (.talk i) := by
  have hleft : (s.leaveHolder i).slot i = .live r := by rw [leaveHolder_slot, h]
  rw [State.claimDone]
  simp only [updRec_slots_of_live hleft]
  rfl

theorem claimRefused_live {s : State} {i : Slot} {r : Record} (h : s.slot i = .live r) (c : Claim) :
    s.claimRefused i c = ((s.setSlot i (.live (if r.loc = .queued ∧ r.timer = none
        then { r with claim := none, timer := s.agingTimer r, held := none } else { r with claim := none }))).loopIdle c.pos
          c.loop).raiseLoop c.pos .orderFailed c.loop := by
  have hlive : (s.setSlot i (.live { r with claim := none })).slot i = .live { r with claim := none } := slot_setSlot_self _ _ _
  rw [State.claimRefused]
  simp only [updRec_slots_of_live h, (record?_eq_some _ i).2 hlive]
  by_cases hc : r.loc = .queued ∧ r.timer = none
  · rw [if_pos hc, if_pos hc, armAging_timer hlive, setSlot_setSlot]
    rfl
  · rw [if_neg hc, if_neg hc]

theorem ownerActs_claim {r : Record} {e : Entry} {c : Claim} {x : Pos} {y : LoopNo} (ho : e.order = .connect x y)
    (hloc : r.loc = .queued ∨ ∃ o, r.loc = .parked o) (hc : r.claim = some c) (hg : c.granted = true) (u : State) (i : Slot)
    (a : Answer) : u.ownerActs i r e a = u.claimAnswer i c a := by
  unfold State.ownerActs
  obtain hl | ⟨o, hl⟩ := hloc <;> simp only [hl, ho, hc, hg, if_true]

end Sys2Proof.Machine

namespace Sys2Proof
open Sys2Proof.Machine

/-- Settles O40. -/
theorem claimIsAcknowledged : Obligations.ClaimIsAcknowledged := by
  intro s e r p x l y d ha hr ho hloc hc
  have hacts := ownerActs_claim ho hloc hc rfl (s.withoutEntry e.slot) e.slot
  have ht : (s.withoutEntry e.slot).slot e.slot = .live r := hr
  refine ⟨?done, fun hd hheld => ?refused⟩
  case done =>
    have hdone := claimDone_live ht ⟨p, l, true⟩
    refine ⟨_, done_quiet ha hr ((hacts _).trans hdone) (quiet_live (slot_setSlot_self _ _ _) rfl rfl), ?_, fun o => ?_, ?_⟩
    · have hpos : (s.withoutEntry e.slot).leaveHolder e.slot =
          { (s.withoutEntry e.slot).leaveHolder e.slot with positions := s.positions } := by
        obtain hl | ⟨o, hl⟩ := hloc
        · rw [leaveHolder_queued ((record?_eq_some _ _).2 ht) hl]
          rfl
        · rw [leaveHolder_parked ((record?_eq_some _ _).2 ht) hl]
          rfl
      rw [hpos]
      exact workAt_set rfl p l (.talk e.slot)
    · show ((s.withoutEntry e.slot).leaveHolder e.slot).orbit o = _
      obtain hl | ⟨u, hl⟩ := hloc
      · rw [leaveHolder_queued ((record?_eq_some _ _).2 ht) hl]
        exact (if_neg fun hc => hc.1 hl).symm
      · rw [leaveHolder_parked ((record?_eq_some _ _).2 ht) hl, orbit_freed]
        refine if_congr ?_ rfl rfl
        rw [hl]
        exact (and_iff_right nofun).symm
    · obtain hl | ⟨u, hl⟩ := hloc
      · rw [leaveHolder_queued ((record?_eq_some _ _).2 ht) hl, if_pos hl]
        rfl
      · rw [leaveHolder_parked ((record?_eq_some _ _).2 ht) hl, if_neg (by rw [hl]; nofun)]
        rfl
  case refused =>
    refine ⟨_, refused_quiet ha hr hd ((hacts _).trans (claimRefused_live ht ⟨p, l, true⟩))
      (quiet_live (slot_setSlot_self _ _ _) (by split <;> rfl) (by split <;> [rfl; exact hheld])), ?_, ?_⟩
    · exact (workAt_idled (v := (s.withoutEntry e.slot).setSlot e.slot _) rfl p l).raiseLoop_first rfl _
    · by_cases hcond : r.loc = .queued ∧ r.timer = none
      · rw [if_pos hcond, if_pos hcond, hheld]
        rfl
      · rw [if_neg hcond, if_neg hcond]
        rfl

end Sys2Proof
end

section
/-! PROOFS. The responses to HOLD and to the orders of the extend sequence (R79, R81, R94 to R105). -/

namespace Sys2Proof.Machine

/-- The return CONNECT of a settled call (R103). -/
theorem returnConnect_settled {s : State} {i : Slot} {r : Record} (hr : s.settled i r) (p : Pos) (l : LoopNo) :
    s.returnConnect p l i = { s with
      slots := s.slots.set i (.live { r with step := 6 }), orders := s.orders ++ [Entry.fresh i r (.connect p l) .none] } :=
  issue_setStep hr _ _ _

/-- A record whose step changes, and an order for it. -/
theorem setStep_issue {s : State} {i : Slot} {r : Record} (hr : s.settled i r) (n : Fin 7) (o : Order) (m : Mark) :
    (s.setStep i n).issue i o m = { s with
      slots := s.slots.set i (.live { r with step := n }), orders := s.orders ++ [Entry.fresh i r o m] } := by
  have hset : (s.setSlot i (.live { r with step := n })).settled i { r with step := n } := ⟨slot_setSlot_self _ _ _, hr.2⟩
  rw [setStep_live hr.1, issue_fresh hset]
  rfl

theorem updPos_settled {s : State} {i : Slot} {r : Record} (hr : s.settled i r) (p : Pos) (f : Position → Position) :
    (s.updPos p f).settled i r := hr

theorem extendToTalk_live {s : State} {i : Slot} {r : Record} (h : s.slot i = .live r) (p : Pos) (l : LoopNo) :
    s.extendToTalk p l i = (s.setSlot i (.live { r with step := 0, dest := none })).setLoop p l (.talk i) := by
  rw [State.extendToTalk, updRec_slots_of_live h]

/-! ### The action at a loop, by its state and the order (R130) -/

section LoopAnswer

variable {u : State} {p : Pos} {l : LoopNo} {i j : Slot} {r : Record} {e : Entry} (a : Answer)

theorem loopAnswer_hold (hl : u.loop p l = .talk j) (ho : e.order = .hold) :
    u.loopAnswer p l i r e a = u.holdAnswer p l i a := by simp only [State.loopAnswer, hl, ho]

theorem loopAnswer_split (hl : u.loop p l = .extend j) (ho : e.order = .split) :
    u.loopAnswer p l i r e a = u.splitAnswer p l i r a := by simp only [State.loopAnswer, hl, ho]

theorem loopAnswer_ring {ext : Digits} (hl : u.loop p l = .extend j) (ho : e.order = .ringExt ext) :
    u.loopAnswer p l i r e a = u.ringAnswer p l i a := by simp only [State.loopAnswer, hl, ho]

theorem loopAnswer_transfer (hl : u.loop p l = .extend j) (ho : e.order = .transfer) :
    u.loopAnswer p l i r e a = u.transferAnswer p l i r e a := by simp only [State.loopAnswer, hl, ho]

theorem loopAnswer_camp {ext : Digits} (hl : u.loop p l = .extend j) (ho : e.order = .camp ext) :
    u.loopAnswer p l i r e a = u.campAnswer p l i ext a := by simp only [State.loopAnswer, hl, ho]

theorem loopAnswer_dropDest (hl : u.loop p l = .extend j) (ho : e.order = .dropDest) :
    u.loopAnswer p l i r e a = u.dropDestAnswer p l i a := by simp only [State.loopAnswer, hl, ho]

theorem loopAnswer_return {x : Pos} {y : LoopNo} (hl : u.loop p l = .extend j) (ho : e.order = .connect x y) :
    u.loopAnswer p l i r e a = u.returnAnswer p l i a := by simp only [State.loopAnswer, hl, ho]

theorem loopAnswer_retrieval {x : Pos} {y : LoopNo} (hl : u.loop p l = .held j ∨ u.loop p l = .recalling j)
    (ho : e.order = .connect x y) : u.loopAnswer p l i r e a = u.retrievalAnswer p l i a := by
  obtain hl | hl := hl <;> simp only [State.loopAnswer, hl, ho]

theorem loopAnswer_release (hl : u.loop p l = .talk j ∨ u.loop p l = .held j ∨ u.loop p l = .recalling j)
    (ho : e.order = .release) : u.loopAnswer p l i r e a = u.releaseAnswer p l i a := by
  obtain hl | hl | hl := hl <;> simp only [State.loopAnswer, hl, ho]

theorem loopAnswer_locked (hl : u.loop p l = .locked j) (ho : e.order = .release) :
    u.loopAnswer p l i r e a = u.retire i false := by simp only [State.loopAnswer, hl, ho]

end LoopAnswer

/-! ### Moves off an EXTEND or TALK loop -/

theorem noteFor_slot (s : State) (p : Pos) (l : LoopNo) (call : Option Slot) (content : List Byte) (i : Slot) :
    (s.noteFor p l call content).slot i = s.slot i := rfl

/-- A call leaves its loop, with a note for it. -/
theorem noted_leave {s : State} {i : Slot} {r : Record} {p : Pos} {l : LoopNo} (h : s.slot i = .live r) (hloc : r.loc = .loop p l)
    (content : List Byte) :
    (s.noteFor p l (some i) content).leaveHolder i = (s.noteFor p l (some i) content).loopIdle p l := by
  have hnoted : (s.noteFor p l (some i) content).slot i = .live r := h
  rw [leaveHolder_loop ((record?_eq_some _ i).2 hnoted) hloc]

end Sys2Proof.Machine

namespace Sys2Proof
open Sys2Proof.Machine

/-- Settles O42. -/
theorem splitAndRingAreAnswered : Obligations.SplitAndRingAreAnswered := by
  intro s e r p l j d ha hr hloc hl hc hh failed t
  have hset : t.settled e.slot r := dropEntry_settled hr
  have hlt : t.loop p l = .extend j := hl
  have hacts := ownerActs_loop hloc t e.slot e
  have raised {v : State} (hv : v.positions = s.positions) (htick : v.tick = s.tick) (k : AlertKind) :
      failed (.extend j) k (v.raiseLoop p k l) := by
    have hwork := workAt_raised hv htick p l k
    rw [hl] at hwork
    exact hwork
  have returned (k : AlertKind) := returnConnect_settled (s := t.raiseLoop p k l) (updPos_settled hset p _) p l
  refine ⟨fun ext ho hdest => ?split, fun ho hd => ?splitRefused, fun ext ho => ⟨?ringing, ?busy, fun h1 h2 => ?unobtainable,
    fun hd => ?ringRefused⟩⟩
  case split =>
    refine done_quiet ha hr ((hacts _).trans ((loopAnswer_split _ hlt ho).trans ?_)) (quiet_live (slot_setSlot_self t _ _) hc hh)
    show (t.setStep e.slot 2).issue e.slot (.ringExt (r.dest.getD [])) .none = _
    have hget : r.dest.getD [] = ext := by rw [hdest]; rfl
    rw [hget, setStep_issue hset]
    rfl
  case splitRefused =>
    refine ⟨_, refused_quiet ha hr hd ((hacts _).trans ((loopAnswer_split _ hlt ho).trans
      (congrArg (fun v => State.orderFailed v p l) (extendToTalk_live hset.1 p l))))
      (quiet_live (slot_setSlot_self t _ _) hc hh), ?_, rfl⟩
    exact (workAt_set (v := t.setSlot e.slot (.live { r with step := 0, dest := none })) rfl p l
      (.talk e.slot)).raiseLoop_first rfl .orderFailed
  case ringing =>
    refine done_quiet ha hr ((hacts _).trans ((loopAnswer_ring _ hlt ho).trans ?_)) (quiet_live (slot_setSlot_self t _ _) hc hh)
    exact setStep_live hset.1 3
  case busy =>
    refine ⟨_, done_quiet ha hr ((hacts _).trans ((loopAnswer_ring _ hlt ho).trans
      (congrArg (fun v => State.raiseLoop v p .destBusy l) (setStep_live hset.1 4))))
      (quiet_live (slot_setSlot_self t _ _) hc hh), raised rfl rfl _, rfl⟩
  case unobtainable =>
    have hring : ringResult d = .unobtainable := (if_neg h1).trans (if_neg h2)
    have hanswer : t.ringAnswer p l e.slot (.done d) = (t.raiseLoop p .destUnobtainable l).returnConnect p l e.slot := by
      simp only [State.ringAnswer, hring]
    refine ⟨_, done_quiet ha hr ((hacts _).trans ((loopAnswer_ring _ hlt ho).trans (hanswer.trans (returned .destUnobtainable))))
      (quiet_live (slot_setSlot_self t _ _) hc hh), (raised (v := t) rfl rfl .destUnobtainable).of_positions rfl, rfl⟩
  case ringRefused =>
    refine ⟨_, refused_quiet ha hr hd ((hacts _).trans ((loopAnswer_ring _ hlt ho).trans (returned .orderFailed)))
      (quiet_live (slot_setSlot_self t _ _) hc hh), (raised (v := t) rfl rfl .orderFailed).of_positions rfl, rfl⟩

/-- Settles O43. -/
theorem transferIsAnswered : Obligations.TransferIsAnswered := by
  intro s e r p l j ext d ha hr hloc hl hc hm hh ho hdest hmark t
  have hset : t.settled e.slot r := dropEntry_settled hr
  have hlt : t.loop p l = .extend j := hl
  have hacts (a : Answer) : t.ownerActs e.slot r e a = t.transferAnswer p l e.slot r e a :=
    (ownerActs_loop hloc t e.slot e a).trans (loopAnswer_transfer a hlt ho)
  refine ⟨fun hun => ?unscreened, fun hsc => ?screened, fun hd => ?refused⟩
  case unscreened =>
    have hleft : ((t.noteFor p l (some e.slot) (extendedText ext)).loopIdle p l).slot e.slot = .live r := hr
    have hu : t.transferAnswer p l e.slot r e (.done d) =
        ((t.noteFor p l (some e.slot) (extendedText ext)).loopIdle p l).setSlot e.slot (.live { r with
          loc := .extended ext, step := 0, timer := some ⟨.noAnswer, s.tick + s.timing.noAnswer, false⟩ }) := by
      simp only [State.transferAnswer, hun, hdest, Option.getD_some]
      rw [noted_leave hset.1 hloc, extendTo_eq hleft, Record.armAt]
      simp only [hh]
      rfl
    exact ⟨_, done_quiet ha hr ((hacts _).trans hu) (quiet_live (slot_setSlot_self _ _ _) hc hh),
      (workAt_noted (v := t) rfl rfl rfl p l (extendedText ext)).of_positions rfl, rfl⟩
  case screened =>
    have hu : t.transferAnswer p l e.slot r e (.done d) =
        (((t.noteFor p l (some e.slot) (digitChars r.digits)).freeOrbits e.slot).loopIdle p l).setSlot e.slot .free := by
      simp only [State.transferAnswer, hsc]
      exact retire_onLoop (updPos_settled hset p _) hloc hm hc
    refine ⟨_, done_quiet ha hr ((hacts _).trans hu) (quiet_free (slot_setSlot_self _ _ _)),
      (workAt_noted (v := t) rfl rfl rfl p l (digitChars r.digits)).of_positions rfl, fun o => orbit_freed s e.slot o, rfl⟩
  case refused =>
    have hu : t.transferAnswer p l e.slot r e (.refused (d == 3)) =
        (t.setSlot e.slot (.live { r with step := if e.mark = .screened then 5 else 3 })).orderFailed p l := by
      obtain hk | hk := hmark <;> simp only [State.transferAnswer, hk] <;> rw [setStep_live hset.1] <;> rfl
    have hwork := workAt_raised (s := s)
      (v := t.setSlot e.slot (.live { r with step := if e.mark = .screened then 5 else 3 })) rfl rfl p l .orderFailed
    rw [hl] at hwork
    exact ⟨_, refused_quiet ha hr hd ((hacts _).trans hu) (quiet_live (slot_setSlot_self t _ _) hc hh), hwork, rfl⟩

end Sys2Proof
end

section
/-! PROOFS. The response to HOLD, with a reserved orbit and a Pickup that waits (R21, R79, R81, R112). -/

namespace Sys2Proof.Machine

theorem armAt_eq {r : Record} (hh : r.held = none) (pu : Purpose) (d : Tick) :
    r.armAt pu d = { r with timer := some ⟨pu, d, false⟩ } := by
  simp only [Record.armAt, hh]

/-! ### A WAITING claim after its record's order (R21) -/

theorem reexamine_parked {u : State} {i : Slot} {r : Record} {c : Claim} {o : OrbitNo} (hr : u.settled i r) (hc : r.claim = some c)
    (hg : c.granted = false) (hl : r.loc = .parked o) : u.reexamine i = { u with
      slots := u.slots.set i (.live { r with claim := some ⟨c.pos, c.loop, true⟩ })
      orders := u.orders ++ [Entry.fresh i r (.connect c.pos c.loop) .none] } := by
  have hset : (u.setSlot i (.live { r with claim := some ⟨c.pos, c.loop, true⟩ })).settled i
      { r with claim := some ⟨c.pos, c.loop, true⟩ } := ⟨slot_setSlot_self _ _ _, hr.2⟩
  have hre : u.reexamine i =
      (u.updRec i fun r => { r with claim := some ⟨c.pos, c.loop, true⟩ }).issue i (.connect c.pos c.loop) .none := by
    have hpick : Request.pickable .pickup r.loc = true := by rw [hl]; rfl
    simp only [State.reexamine, (record?_eq_some u i).2 hr.1, hc, hg, inFlight_of_settled hr, hpick, Bool.false_and, Bool.false_or,
      Bool.false_eq_true, if_false, if_true]
  rw [hre, updRec_slots_of_live hr.1, issue_fresh hset]
  rfl

/-- An answer by its work, and what then becomes of the claim and the held expiry. -/
theorem answered_settles {s u v : State} {e : Entry} {r : Record} {a : Answer} (h : s.slot e.slot = .live r)
    (hu : (s.withoutEntry e.slot).ownerActs e.slot r e a = u) (hv : (u.reexamine e.slot).settleHeld e.slot = v) :
    s.answered e (some a) = v.finishAll := by
  rw [answered_live h, hu, hv]

/-- A waiting Pickup of a call that has been parked is granted, and nothing else is to settle. -/
theorem parked_granted {u : State} {i : Slot} {r : Record} {c : Claim} {o : OrbitNo} (hr : u.settled i r) (hc : r.claim = some c)
    (hg : c.granted = false) (hl : r.loc = .parked o) (hh : r.held = none) : (u.reexamine i).settleHeld i = { u with
      slots := u.slots.set i (.live { r with claim := some ⟨c.pos, c.loop, true⟩ })
      orders := u.orders ++ [Entry.fresh i r (.connect c.pos c.loop) .none] } := by
  rw [reexamine_parked hr hc hg hl]
  refine settleHeld_none fun r' hr' => ?_
  rw [live_of_set (v := u) (r := { r with claim := some ⟨c.pos, c.loop, true⟩ }) rfl hr']
  exact hh

theorem reexamine_dropped {u : State} {i : Slot} {r : Record} {c : Claim} (hr : u.slot i = .live r) (hc : r.claim = some c)
    (hg : c.granted = false) (hflight : u.inFlight i = false ∨ r.loc.isRescue = true) (hl : ∀ o, r.loc ≠ .parked o) :
    u.reexamine i = ((u.setSlot i (.live { r with claim := none })).loopIdle c.pos c.loop).errorTone c.pos := by
  have hpick : Request.pickable .pickup r.loc = false := by
    cases hloc : r.loc with
    | parked o => exact absurd hloc (hl o)
    | _ => rfl
  have hfree : (u.inFlight i && !r.loc.isRescue) = false := by
    obtain h | h := hflight <;> rw [h]
    · rfl
    · exact Bool.and_false _
  simp only [State.reexamine, (record?_eq_some u i).2 hr, hc, hg, hfree, hpick, Bool.or_self, Bool.false_eq_true, if_false]
  rw [updRec_slots_of_live hr]

theorem viewWithout_of_pos {s t : State} {q : Pos} (h : t.pos q = s.pos q) (m : LoopNo) :
    t.viewWithout q m (t.view q) = s.viewWithout q m (s.view q) := by
  rw [view_of_pos h]
  exact viewKept_congr (by rw [h]; exact .refl _) _ _

/-! ### The answers to HOLD -/

theorem holdAnswer_held {t : State} {i : Slot} {r : Record} (hr : t.slot i = .live r) (hh : r.held = none)
    (hno : ∀ o, t.orbit o ≠ .reserved i) (p : Pos) (l : LoopNo) (d : Byte) :
    t.holdAnswer p l i (.done d) = (t.setLoop p l (.held i)).setSlot i
      (.live { r with timer := some ⟨.holdRecall, t.tick + t.timing.holdRecall, false⟩ }) := by
  have hlive : (t.setLoop p l (.held i)).slot i = .live r := hr
  simp only [State.holdAnswer, reservation_none hno]
  rw [armNow_live ((record?_eq_some _ i).2 hlive), armAt_eq hh]
  rfl

theorem holdAnswer_parked {t : State} {i : Slot} {r : Record} {p : Pos} {l : LoopNo} {o : OrbitNo} (hr : t.slot i = .live r)
    (hh : r.held = none) (hloc : r.loc = .loop p l) (ho : ∀ x, t.orbit x = .reserved i ↔ x = o) (d : Byte) :
    t.holdAnswer p l i (.done d) =
      (((t.noteFor p l (some i) (parkedText o)).loopIdle p l).setOrbit o (.occupied i)).setSlot i (.live { r with
        loc := .parked o, owner := some p, timer := some ⟨.parkRecall, t.tick + t.timing.parkRecall, false⟩ }) := by
  have hleft : ((t.noteFor p l (some i) (parkedText o)).loopIdle p l).slot i = .live r := hr
  have hheld : { r with loc := .parked o, owner := some p }.held = none := hh
  simp only [State.holdAnswer, reservation_some ho]
  rw [noted_leave hr hloc, placeInOrbit_eq hleft, armAt_eq hheld]
  rfl

/-- A refused HOLD: ORDER_FAILED, and the reserved orbit EMPTY again. -/
theorem holdAnswer_refused {t : State} {i : Slot} (huniq : ∀ x y, t.orbit x = .reserved i → t.orbit y = .reserved i → x = y)
    (p : Pos) (l : LoopNo) (b : Bool) : ∃ v : State, t.holdAnswer p l i (.refused b) = v.orderFailed p l ∧
      (∀ x, v.orbit x = if t.orbit x = .reserved i then .empty else t.orbit x) ∧ v = { t with orbits := v.orbits } := by
  obtain ⟨hres, hno⟩ | ⟨o, hres, ho⟩ := reservation_cases huniq
  · exact ⟨t, by simp only [State.holdAnswer, hres], fun x => (if_neg (hno x)).symm, rfl⟩
  · refine ⟨t.setOrbit o .empty, by simp only [State.holdAnswer, hres], fun x => ?_, rfl⟩
    rw [orbit_setOrbit]
    by_cases hx : x = o
    · rw [if_pos hx.symm, if_pos ((ho x).2 hx)]
    · rw [if_neg (Ne.symm hx), if_neg fun hc => hx ((ho x).1 hc)]

end Sys2Proof.Machine

namespace Sys2Proof
open Sys2Proof.Machine

/-- Settles O41. -/
theorem holdAndParkAreAnswered : Obligations.HoldAndParkAreAnswered := by
  intro s e r p l j d ha hr ho hloc hl hh
  have hset : (s.withoutEntry e.slot).settled e.slot r := dropEntry_settled hr
  have hacts (a : Answer) : (s.withoutEntry e.slot).ownerActs e.slot r e a = (s.withoutEntry e.slot).holdAnswer p l e.slot a :=
    (ownerActs_loop hloc _ e.slot e a).trans (loopAnswer_hold a (u := s.withoutEntry e.slot) hl ho)
  refine ⟨fun hc hno => ?held, fun o hres claim hclaim hwait => ?parked, fun hd hc huniq => ?refused,
    fun q m hd hc hq huniq => ?dropped⟩
  case held =>
    exact ⟨_, done_quiet ha hr ((hacts _).trans (holdAnswer_held hset.1 hh hno p l d)) (quiet_live (slot_setSlot_self _ _ _) hc hh),
      (workAt_set (s := s) (v := s.withoutEntry e.slot) rfl p l (.held e.slot)).of_positions rfl, rfl⟩
  case parked =>
    have hplaced := (hacts _).trans (holdAnswer_parked hset.1 hh hloc hres d)
    have hwork := workAt_noted (s := s) (v := s.withoutEntry e.slot) (i := e.slot) rfl rfl rfl p l (parkedText o)
    obtain hnone | ⟨q, m, -, hsome⟩ := hwait
    · rw [hnone] at hclaim ⊢
      refine ⟨_, done_quiet ha hr hplaced (quiet_live (slot_setSlot_self _ _ _) hclaim hh), hwork.of_positions rfl, ?_⟩
      simp only [hclaim, Option.map_none, List.append_nil]
      rfl
    · rw [hsome] at hclaim ⊢
      have hparked : ((((s.withoutEntry e.slot).noteFor p l (some e.slot) (parkedText o)).loopIdle p l).setOrbit o
          (.occupied e.slot) |>.setSlot e.slot (.live { r with
            loc := .parked o, owner := some p
            timer := some ⟨.parkRecall, s.tick + s.timing.parkRecall, false⟩ })).settled e.slot { r with
              loc := .parked o, owner := some p
              timer := some ⟨.parkRecall, s.tick + s.timing.parkRecall, false⟩ } :=
        ⟨slot_setSlot_self _ _ _, hset.2⟩
      refine ⟨_, (exec_done ha d).trans (congrArg Host.Outcome.next
        (answered_settles hr hplaced (parked_granted hparked hclaim rfl rfl hh))), hwork.of_positions rfl, ?_⟩
      simp only [State.setSlot, Vector.set_set]
      rfl
  case refused =>
    obtain ⟨v, hans, horb, hv⟩ := holdAnswer_refused (t := s.withoutEntry e.slot) (i := e.slot) huniq p l (d == 3)
    have hlive : (v.orderFailed p l).slot e.slot = .live r := by rw [hv]; exact hr
    have hwork := workAt_raised (s := s) (v := v) (by rw [hv]; rfl) (by rw [hv]; rfl) p l .orderFailed
    rw [hl] at hwork
    refine ⟨_, refused_quiet ha hr hd ((hacts _).trans hans) (quiet_live hlive hc hh), hwork, horb, ?_⟩
    generalize v.orbits = os at hv
    rw [hv]
    rfl
  case dropped =>
    obtain ⟨v, hans, horb, hv⟩ := holdAnswer_refused (t := s.withoutEntry e.slot) (i := e.slot) huniq p l (d == 3)
    have hlive : (v.orderFailed p l).slot e.slot = .live r := by rw [hv]; exact hr
    have hidle : (v.orderFailed p l).inFlight e.slot = false := by
      have hflight := inFlight_of_settled hset
      rw [hv]
      exact hflight
    have hdrop := reexamine_dropped hlive hc rfl (.inl hidle) (by rw [hloc]; nofun)
    have hwork := workAt_raised (s := s) (v := v) (by rw [hv]; rfl) (by rw [hv]; rfl) p l .orderFailed
    rw [hl] at hwork
    have hpos : (v.orderFailed p l).pos q = s.pos q := hwork.2.2.1 q hq
    have hend := (((State.workAt.refl (v.orderFailed p l) q m).of_positions
      (v := (v.orderFailed p l).setSlot e.slot (.live { r with claim := none })) rfl).loopIdle).errorTone_first
    rw [viewWithout_of_pos hpos, hpos] at hend
    refine ⟨v.orderFailed p l, _, (exec_refused ha hd).trans ?_, hwork, hend, horb, ?_⟩
    · rw [answered_live hr, hacts, hans, hdrop, settleHeld_none]
      intro r' hr'
      rw [live_of_set (v := v) (r := { r with claim := none }) rfl hr']
      exact hh
    · generalize v.orbits = os at hv
      rw [hv]
      rfl

end Sys2Proof
end

section
/-! PROOFS. The responses to CAMP, DROP_DEST and the return CONNECT, and to the orders of calls in TALK, HELD, RECALLING, LOCKED
and QUEUED (R60, R65, R78, R80, R82, R100 to R105, R116). -/

namespace Sys2Proof.Machine

/-! ### Joining a camp-on list (R116) -/

theorem campCalls_map_self (ext : Digits) (i : Slot) : ∀ {camp : List CampEntry}, ext ∈ camp.map CampEntry.ext →
    campCalls (camp.map fun e => if e.ext = ext then { e with calls := e.calls ++ [i] } else e) ext = campCalls camp ext ++ [i]
  | e :: camp, h => by
    rw [List.map_cons, campCalls_cons, campCalls_cons]
    by_cases he : e.ext = ext
    · rw [if_pos he, if_pos he, if_pos he]
    · rw [if_neg he, if_neg he, if_neg he]
      exact campCalls_map_self ext i ((List.mem_cons.1 h).resolve_left (Ne.symm he))

theorem campCalls_map_ne {ext x : Digits} (hx : x ≠ ext) (i : Slot) : ∀ camp : List CampEntry,
    campCalls (camp.map fun e => if e.ext = ext then { e with calls := e.calls ++ [i] } else e) x = campCalls camp x
  | [] => rfl
  | e :: camp => by
    rw [List.map_cons, campCalls_cons, campCalls_cons, campCalls_map_ne hx i camp]
    by_cases he : e.ext = ext
    · have hne : e.ext ≠ x := fun hc => hx (hc.symm.trans he)
      rw [if_pos he, if_neg hne, if_neg hne]
    · rw [if_neg he]

theorem campCalls_snoc {ext : Digits} (i : Slot) (x : Digits) : ∀ {camp : List CampEntry}, ext ∉ camp.map CampEntry.ext →
    campCalls (camp ++ [⟨ext, [i]⟩]) x = if x = ext then [i] else campCalls camp x
  | [], _ => by
    rw [List.nil_append, campCalls_cons]
    exact if_congr eq_comm rfl rfl
  | e :: camp, h => by
    obtain ⟨he, h⟩ := not_or.1 (mt List.mem_cons.2 h)
    rw [List.cons_append, campCalls_cons, campCalls_cons, campCalls_snoc i x h]
    by_cases hx : e.ext = x
    · rw [if_pos hx, if_pos hx, if_neg fun hc => he (hc.symm.trans hx.symm)]
    · rw [if_neg hx, if_neg hx]

theorem campCalls_with (camp : List CampEntry) (ext : Digits) (i : Slot) (x : Digits) :
    campCalls (campWith camp ext i) x = if x = ext then campCalls camp ext ++ [i] else campCalls camp x := by
  have hany : (camp.any fun e => e.ext == ext) = true ↔ ext ∈ camp.map CampEntry.ext := by simp
  unfold campWith
  by_cases h : ext ∈ camp.map CampEntry.ext
  · rw [if_pos (hany.2 h)]
    by_cases hx : x = ext
    · rw [hx, if_pos rfl, campCalls_map_self ext i h]
    · rw [if_neg hx, campCalls_map_ne hx]
  · rw [if_neg fun hc => h (hany.1 hc), campCalls_snoc i x h, campCalls_absent h]
    rfl

theorem campedOn_campAt {s u : State} {ext : Digits} {i : Slot} (h : u.camp = campWith s.camp ext i) :
    u.campedOn ext = s.campedOn ext ++ [i] ∧ ∀ x, x ≠ ext → u.campedOn x = s.campedOn x := by
  refine ⟨?_, fun x hx => ?_⟩ <;> rw [campedOn_eq, campedOn_eq, h, campCalls_with]
  · exact if_pos rfl
  · exact if_neg hx

/-! ### The loop that becomes LOCKED (R105) -/

theorem tagLine_live {s t : State} {i : Slot} {r r' : Record} (hs : s.slot i = .live r) (ht : t.slot i = .live r')
    (hr : r'.tenant = r.tenant) (htenants : t.tenants = s.tenants) (l : LoopNo) : t.tagLine (some i) l = s.tagLine (some i) l := by
  have htenant (x : TenantNo) : t.tenant x = s.tenant x := by simp only [State.tenant, htenants]
  simp only [State.tagLine, Option.bind_some, tenantOf_of_live hs, tenantOf_of_live ht, hr, htenant]

theorem lockLoop_live {s : State} {i : Slot} {r : Record} (h : s.slot i = .live r) (p : Pos) (l : LoopNo) :
    s.lockLoop p l i = (((s.setSlot i (.live { r with step := 0, dest := none, timer := none, held := none })).setLoop p l
      (.locked i)).raiseLoop p .lockout l).noteFor p l (some i) lockedText := by
  simp only [State.lockLoop, updRec_slots_of_live h]
  rfl

/-! ### Retrieval (R78) -/

theorem retrievalAnswer_done {s : State} {i : Slot} {r : Record} (h : s.slot i = .live r) (p : Pos) (l : LoopNo) (d : Byte) :
    s.retrievalAnswer p l i (.done d) = ((s.setLoop p l (.talk i)).setSlot i (.live { r with timer := none, held := none })).updPos p
      fun q => q.dropKindAt l .holdRecall := by
  have hlive : (s.setLoop p l (.talk i)).slot i = .live r := h
  simp only [State.retrievalAnswer, updRec_slots_of_live hlive]
  rfl

theorem workAt_retrieved {s v : State} (hv : v.positions = s.positions) (p : Pos) (l : LoopNo) (i : Slot) (x : SlotState) :
    s.workAt (((v.setLoop p l (.talk i)).setSlot i x).updPos p fun q => q.dropKindAt l .holdRecall) p l (.talk i)
      (s.viewWithoutKind p l .holdRecall (s.view p)) (s.pos p).note [] :=
  ((workAt_set hv p l (.talk i)).of_positions (v := (v.setLoop p l (.talk i)).setSlot i x) rfl).dropKindAt .holdRecall

/-! ### DIVERT (R60, R65) -/

theorem divertAnswer_refused {s : State} {i : Slot} {r : Record} (h : s.slot i = .live r) (e : Entry) (b : Bool) :
    s.divertAnswer i e (.refused b) = s.setSlot i (.live { r with overflowSpent := r.overflowSpent || e.mark == .overflow }) := by
  have hmark : (e.mark == .overflow) = true ↔ e.mark = .overflow := beq_iff_eq
  generalize (e.mark == .overflow) = spends at hmark ⊢
  cases spends with
  | true =>
    simp only [State.divertAnswer, if_pos (hmark.1 rfl)]
    rw [updRec_slots_of_live h, Bool.or_true]
  | false =>
    have hkept : s.setSlot i (.live r) = s := by
      rw [← h]
      exact congrArg (fun xs => ({ s with slots := xs } : State)) (Vector.set_getElem_self i.isLt)
    simp only [State.divertAnswer, if_neg fun hc => Bool.false_ne_true (hmark.2 hc), Bool.or_false]
    exact hkept.symm

end Sys2Proof.Machine

namespace Sys2Proof
open Sys2Proof.Machine

/-- Settles O44. -/
theorem campAndReturnAreAnswered : Obligations.CampAndReturnAreAnswered := by
  intro s e r p l j d ha hr hloc hl hc hh t
  have hset : t.settled e.slot r := dropEntry_settled hr
  have hlt : t.loop p l = .extend j := hl
  have hacts := ownerActs_loop hloc t e.slot e
  have raised {v : State} (hv : v.positions = s.positions) (htick : v.tick = s.tick) :
      s.workAt (v.orderFailed p l) p l (.extend j) (s.viewRaised p .orderFailed l (s.view p)) (s.pos p).note
        (raisedTones (s.pos p) .orderFailed) := by
    have hwork := workAt_raised hv htick p l .orderFailed
    rw [hl] at hwork
    exact hwork
  refine ⟨fun ext ho => ⟨?camp, fun hd => ?campRefused⟩, fun ho => ⟨?drop, fun hd => ?dropRefused⟩,
    fun x y ho => ⟨?back, fun hd => ?locked⟩⟩
  case camp =>
    have hleft : ((t.noteFor p l (some e.slot) (campedText ext)).loopIdle p l).slot e.slot = .live r := hr
    have hheld : { r with loc := .camped ext, dest := some ext, step := 0 }.held = none := hh
    have hu : t.campAnswer p l e.slot ext (.done d) =
        ({ (t.noteFor p l (some e.slot) (campedText ext)).loopIdle p l with camp := campWith s.camp ext e.slot } : State).setSlot
          e.slot (.live { r with
            loc := .camped ext, dest := some ext, step := 0
            timer := some ⟨.campTimeout, s.tick + s.timing.camp, false⟩ }) := by
      show ((t.noteFor p l (some e.slot) (campedText ext)).leaveHolder e.slot).campAt e.slot ext = _
      rw [noted_leave hset.1 hloc, campAt_eq hleft, armAt_eq hheld]
      rfl
    exact ⟨_, done_quiet ha hr ((hacts _).trans ((loopAnswer_camp _ hlt ho).trans hu)) (quiet_live (slot_setSlot_self _ _ _) hc hh),
      (workAt_noted (s := s) (v := t) rfl rfl rfl p l (campedText ext)).of_positions rfl, (campedOn_campAt rfl).1,
      (campedOn_campAt rfl).2, rfl⟩
  case campRefused =>
    exact ⟨_, refused_quiet ha hr hd ((hacts _).trans ((loopAnswer_camp _ hlt ho).trans
      (congrArg (fun v => State.orderFailed v p l) (setStep_live hset.1 4)))) (quiet_live (slot_setSlot_self t _ _) hc hh),
      raised rfl rfl, rfl⟩
  case drop =>
    exact done_quiet ha hr ((hacts _).trans ((loopAnswer_dropDest _ hlt ho).trans (returnConnect_settled hset p l)))
      (quiet_live (slot_setSlot_self t _ _) hc hh)
  case dropRefused =>
    exact ⟨_, refused_quiet ha hr hd ((hacts _).trans ((loopAnswer_dropDest _ hlt ho).trans
      (returnConnect_settled (s := t.orderFailed p l) (updPos_settled hset p _) p l)))
      (quiet_live (slot_setSlot_self t _ _) hc hh), (raised (v := t) rfl rfl).of_positions rfl, rfl⟩
  case back =>
    exact ⟨_, done_quiet ha hr ((hacts _).trans ((loopAnswer_return _ hlt ho).trans (extendToTalk_live hset.1 p l)))
      (quiet_live (slot_setSlot_self t _ _) hc hh), workAt_set (s := s) rfl p l (.talk e.slot), rfl⟩
  case locked =>
    refine ⟨_, refused_quiet ha hr hd ((hacts _).trans ((loopAnswer_return _ hlt ho).trans (lockLoop_live hset.1 p l)))
      (quiet_live (slot_setSlot_self t _ _) hc rfl), ?_, rfl⟩
    have hwork := ((workAt_set (s := s) (v := t.setSlot e.slot (.live { r with step := 0, dest := none, timer := none, held := none }))
      rfl p l (.locked e.slot)).raiseLoop_first rfl .lockout).noteFor l (some e.slot) lockedText
    rw [tagLine_live (s := s) (r' := { r with step := 0, dest := none, timer := none, held := none }) hr ?_ rfl ?_] at hwork
    · exact hwork
    · exact slot_setSlot_self t e.slot _
    · rfl

/-- Settles O45. -/
theorem loopOrdersAndDivertsAreAnswered : Obligations.LoopOrdersAndDivertsAreAnswered := by
  intro s e r d ha hr hc hm hh t freed
  have hset : t.settled e.slot r := dropEntry_settled hr
  refine ⟨fun p l hloc => ?_, fun ext hloc ho => ⟨?diverted, fun hd => ?stays⟩⟩
  · intro failed
    have hacts := ownerActs_loop hloc t e.slot e
    have hfailed : failed (t.orderFailed p l) := ⟨workAt_raised rfl rfl p l .orderFailed, rfl⟩
    have hout : s.workAt (((t.freeOrbits e.slot).loopIdle p l).setSlot e.slot .free) p l .idle (s.viewWithout p l (s.view p))
        (s.pos p).note [] ∧ freed (((t.freeOrbits e.slot).loopIdle p l).setSlot e.slot .free) := by
      refine ⟨(workAt_idled (v := t.freeOrbits e.slot) rfl p l).of_positions rfl, fun o => orbit_freed s e.slot o, ?_⟩
      rw [if_neg (by rw [hloc]; nofun)]
      rfl
    have hretired := retire_onLoop hset hloc hm hc
    refine ⟨fun j x y hl ho => ⟨?retrieved, fun hd => ?lost⟩, fun j hl ho => ⟨?released, fun hd => ?kept⟩,
      fun j c hl ho hcmd => ?unlocked⟩
    case retrieved =>
      exact ⟨_, done_quiet ha hr ((hacts _).trans ((loopAnswer_retrieval (u := t) _ hl ho).trans (retrievalAnswer_done hset.1 p l d)))
        (quiet_live (slot_setSlot_self (t.setLoop p l (.talk e.slot)) _ _) hc rfl), workAt_retrieved rfl p l e.slot _, rfl⟩
    case lost =>
      exact ⟨_, refused_quiet ha hr hd ((hacts _).trans (loopAnswer_retrieval (u := t) _ hl ho)) (quiet_live hset.1 hc hh), hfailed⟩
    case released =>
      exact ⟨_, done_quiet ha hr ((hacts _).trans ((loopAnswer_release (u := t) _ hl ho).trans hretired))
        (quiet_free (slot_setSlot_self _ _ _)), hout⟩
    case kept =>
      exact ⟨_, refused_quiet ha hr hd ((hacts _).trans (loopAnswer_release (u := t) _ hl ho)) (quiet_live hset.1 hc hh), hfailed⟩
    case unlocked =>
      refine ⟨((t.freeOrbits e.slot).loopIdle p l).setSlot e.slot .free, ?_, hout⟩
      obtain rfl | rfl := hcmd
      · exact done_quiet ha hr ((hacts _).trans ((loopAnswer_locked (u := t) _ hl ho).trans hretired)) (quiet_free (slot_setSlot_self _ _ _))
      · by_cases hd : d = 2
        · subst hd
          have hlocked : t.lockedRelease e r = true := by
            rw [State.lockedRelease, ho, hloc]
            show (s.loop p l).isLocked = true
            rw [hl]
            rfl
          have hlive := hset.1
          have hquiet := settle_quiet (quiet_free (u := ((t.freeOrbits e.slot).loopIdle p l).setSlot e.slot .free) (i := e.slot)
            (slot_setSlot_self _ _ _))
          rw [← hretired] at hquiet ⊢
          rw [exec_noCall ha]
          unfold State.answered
          rw [dropEntry_eq]
          simp only [hlive, hlocked, Bool.not_true, hquiet, t]
        · exact refused_quiet ha hr hd ((hacts _).trans ((loopAnswer_locked (u := t) _ hl ho).trans hretired))
            (quiet_free (slot_setSlot_self _ _ _))
  case diverted =>
    have hacts : t.ownerActs e.slot r e (.done d) = t.retire e.slot false := by
      unfold State.ownerActs
      rw [hloc, ho]
      rfl
    refine ⟨_, done_quiet ha hr (hacts.trans (retire_offLoop hset (by rw [hloc]; nofun) hm hc))
      (quiet_free (slot_setSlot_self _ _ _)), rfl, fun o => orbit_freed s e.slot o, ?_⟩
    rw [State.letOut, hloc]
    rfl
  case stays =>
    have hacts : t.ownerActs e.slot r e (.refused (d == 3)) = t.divertAnswer e.slot e (.refused (d == 3)) := by
      unfold State.ownerActs
      rw [hloc, ho]
    exact refused_quiet ha hr hd (hacts.trans (divertAnswer_refused hset.1 e _)) (quiet_live (slot_setSlot_self t _ _) hc hh)

end Sys2Proof
end

section
/-! PROOFS. The responses to the orders of camped, extended and rescued calls (R88, R89, R118 to R121). -/

namespace Sys2Proof.Machine

/-! ### A settled call gives its holder up for the queue (R44) -/

/-- A call that leaves no loop, queue place or orbit joins the queue as a recall. -/
theorem recallFrom_spec {s : State} {i : Slot} {r : Record} (h : s.settled i r)
    (hloc : (∃ y, r.loc = .camped y) ∨ (∃ y, r.loc = .extended y) ∨ ∃ m, r.loc = .rescue m) (why : RecallReason)
    (owner : Option Pos) :
    s.thresholdShown (s.recallFrom i why owner) r.tenant ∧
      ((∃ y, r.loc = .camped y) → s.campLeft (s.recallFrom i why owner) i) ∧
      ((∀ y, r.loc ≠ .camped y) → (s.recallFrom i why owner).camp = s.camp) ∧
      s.recallFrom i why owner = { s with
        slots := s.slots.set i (.live (s.recalled r why owner)), queue := s.queue ++ [i]
        orders := s.orders ++ s.nightEntries i r, camp := (s.recallFrom i why owner).camp
        positions := (s.recallFrom i why owner).positions } := by
  obtain ⟨cs, hleave, hcamped, hother⟩ : ∃ cs, s.leaveHolder i = { s with camp := cs } ∧
      ((∃ y, r.loc = .camped y) → cs = campWithout s.camp i) ∧ ((∀ y, r.loc ≠ .camped y) → cs = s.camp) := by
    unfold State.leaveHolder
    simp only [(record?_eq_some s i).2 h.1]
    obtain ⟨y, hl⟩ | ⟨y, hl⟩ | ⟨m, hl⟩ := hloc <;> rw [hl]
    · exact ⟨_, rfl, fun _ => rfl, fun hc => absurd rfl (hc y)⟩
    · exact ⟨s.camp, rfl, nofun, fun _ => rfl⟩
    · exact ⟨s.camp, rfl, nofun, fun _ => rfl⟩
  have hleft : ({ s with camp := cs } : State).settled i r := h
  obtain ⟨hshown, hframe⟩ := recall_spec hleft why owner
  rw [State.recallFrom, hleave]
  generalize ({ s with camp := cs } : State).recall i why owner = u at *
  have hcamp : u.camp = cs := by rw [hframe]
  refine ⟨thresholdShown_congr hshown rfl rfl rfl rfl rfl rfl, fun hy => campLeft_of_without (hcamp.trans (hcamped hy)),
    fun hy => hcamp.trans (hother hy), ?_⟩
  generalize u.positions = ps at hframe
  rw [hframe]
  rfl

theorem recalled_quiet {u s : State} {i : Slot} {r : Record} {why : RecallReason} {owner : Option Pos}
    (h : u = { s with
      slots := s.slots.set i (.live (s.recalled r why owner)), queue := u.queue, orders := u.orders, camp := u.camp
      positions := u.positions }) :
    ∀ r', u.slot i = .live r' → r'.claim = none ∧ r'.held = none := by
  refine quiet_live (r := s.recalled r why owner) ?_ rfl rfl
  rw [h]
  exact slot_setSlot_self s i _

/-! ### The extended set and the camp-on lists -/

theorem rearmSpent_live {s : State} {i : Slot} {r : Record} {tm : Timer} (h : s.slot i = .live r) (ht : r.timer = some tm)
    (hh : r.held = none) (pu : Purpose) (iv : Interval) :
    s.rearmSpent i r pu iv = s.setSlot i (.live { r with timer := some ⟨pu, rearmed s.tick tm.deadline iv, false⟩ }) := by
  simp only [State.rearmSpent, ht]
  rw [armFrom_live ((record?_eq_some s i).2 h), armAt_eq hh]

theorem leaveHolder_camped {s : State} {i : Slot} {r : Record} {ext : Digits} (h : s.slot i = .live r) (hl : r.loc = .camped ext) :
    s.leaveHolder i = { s with camp := campWithout s.camp i } := by
  simp only [State.leaveHolder, (record?_eq_some s i).2 h, hl]

end Sys2Proof.Machine

namespace Sys2Proof
open Sys2Proof.Machine

/-- Settles O46. -/
theorem campedAndExtendedCallsAreAnswered : Obligations.CampedAndExtendedCallsAreAnswered := by
  intro s e r d ha hr hc hm hh t recalls
  have hset : t.settled e.slot r := dropEntry_settled hr
  have recalled {c : Instr} {why : RecallReason} (hloc : (∃ y, r.loc = .camped y) ∨ (∃ y, r.loc = .extended y) ∨ ∃ m, r.loc = .rescue m)
      (hexec : (∀ r', (t.recallFrom e.slot why r.owner).slot e.slot = .live r' → r'.claim = none ∧ r'.held = none) →
        exec c s = .next (t.recallFrom e.slot why r.owner).finishAll) : recalls c why := by
    obtain ⟨hshown, hcamped, hother, hframe⟩ := recallFrom_spec hset hloc why r.owner
    generalize t.recallFrom e.slot why r.owner = u at *
    refine ⟨u, hexec (recalled_quiet (s := t) (r := r) (why := why) (owner := r.owner) ?_), ?_, hcamped, hother, hframe⟩
    · generalize u.positions = ps, u.camp = cs at hframe
      rw [hframe]
    · exact hshown
  refine ⟨fun ext tm hloc ho ht => ⟨?campDone, fun hd => ?campRefused⟩,
    fun ext tm hloc ho ht => ⟨?extDone, fun hd h3 => ?extRefused, ?extAnswered⟩,
    fun ext dial hloc ho => ⟨?ringing, ?busy, fun h1 h2 => ?unobtainable, fun hd => ?ringRefused⟩⟩
  case campDone =>
    refine recalled (.inl ⟨ext, hloc⟩) fun hq => done_quiet ha hr ?_ hq
    simp only [State.ownerActs, hloc, ho]
    rfl
  case campRefused =>
    refine refused_quiet ha hr hd ?_ (quiet_live (slot_setSlot_self t _ _) hc hh)
    have hacts : t.ownerActs e.slot r e (.refused (d == 3)) = t.rearmSpent e.slot r .campTimeout t.timing.camp := by
      simp only [State.ownerActs, hloc, ho]
      rfl
    rw [hacts, rearmSpent_live hset.1 ht hh]
    rfl
  case extDone =>
    refine recalled (.inr (.inl ⟨ext, hloc⟩)) fun hq => done_quiet ha hr ?_ hq
    simp only [State.ownerActs, hloc, ho]
    rfl
  case extRefused =>
    refine refused_quiet ha hr hd ?_ (quiet_live (slot_setSlot_self t _ _) hc hh)
    have hacts : t.ownerActs e.slot r e (.refused (d == 3)) = t.rearmSpent e.slot r .noAnswer t.timing.noAnswer := by
      rw [beq_eq_false_iff_ne.2 h3]
      simp only [State.ownerActs, hloc, ho]
      rfl
    rw [hacts, rearmSpent_live hset.1 ht hh]
    rfl
  case extAnswered =>
    have hacts : t.ownerActs e.slot r e (.refused (3 == (3 : Byte))) = t.retire e.slot false := by
      simp only [State.ownerActs, hloc, ho]
      rfl
    refine ⟨_, refused_quiet ha hr (by decide) (hacts.trans (retire_offLoop hset (by rw [hloc]; nofun) hm hc))
      (quiet_free (slot_setSlot_self _ _ _)), fun o => orbit_freed s e.slot o, ?_⟩
    rw [State.letOut, hloc]
    rfl
  case ringing =>
    have hleft : ({ t with camp := campWithout t.camp e.slot } : State).slot e.slot = .live r := hr
    have hheld : { r with loc := .extended ext, dest := some ext, step := 0, owner := r.owner }.held = none := hh
    have hacts : t.ownerActs e.slot r e (.done 1) = (t.leaveHolder e.slot).extendTo e.slot ext r.owner := by
      simp only [State.ownerActs, hloc, ho]
      rfl
    have hmoved := extendTo_eq hleft ext r.owner
    rw [armAt_eq hheld] at hmoved
    refine ⟨_, done_quiet ha hr (hacts.trans ((congrArg (fun v => State.extendTo v e.slot ext r.owner)
      (leaveHolder_camped hset.1 hloc)).trans hmoved)) (quiet_live (slot_setSlot_self _ _ _) hc hh), campLeft_of_without rfl, rfl⟩
  case busy =>
    refine done_quiet ha hr ?_ (quiet_live hset.1 hc hh)
    simp only [State.ownerActs, hloc, ho]
    rfl
  case unobtainable =>
    have hring : ringResult d = .unobtainable := (if_neg h1).trans (if_neg h2)
    refine recalled (.inl ⟨ext, hloc⟩) fun hq => done_quiet ha hr ?_ hq
    simp only [State.ownerActs, hloc, ho, State.campRingAnswer, hring]
    rfl
  case ringRefused =>
    refine recalled (.inl ⟨ext, hloc⟩) fun hq => refused_quiet ha hr hd ?_ hq
    simp only [State.ownerActs, hloc, ho]
    rfl

end Sys2Proof
end

section
/-! PROOFS. The responses to the orders of calls in the rescue set: the table of R88 with R89 and R90. -/

namespace Sys2Proof.Machine

/-- An order for a rescued call whose rescue fields change with it. -/
theorem updRescue_issue {s : State} {i : Slot} {r : Record} (h : s.settled i r) (m : Rescue) (o : Order) (k : Mark) :
    (s.updRescue i m).issue i o k = { s with
      slots := s.slots.set i (.live { r with loc := .rescue m }), orders := s.orders ++ [Entry.fresh i r o k] } := by
  have hset : (s.setSlot i (.live { r with loc := .rescue m })).settled i { r with loc := .rescue m } :=
    ⟨slot_setSlot_self _ _ _, h.2⟩
  rw [State.updRescue, updRec_slots_of_live h.1, issue_fresh hset]
  rfl

theorem rescueHold_settled {s : State} {i : Slot} {r : Record} (h : s.settled i r) (m : Rescue) :
    s.rescueHold i m = { s with
      slots := s.slots.set i (.live { r with loc := .rescue { m with orbit := none } })
      orders := s.orders ++ [Entry.fresh i r .hold .none] } := updRescue_issue h _ _ _

theorem rescueRelease_settled {s : State} {i : Slot} {r : Record} (h : s.settled i r) (m : Rescue) :
    s.rescueRelease i m = { s with
      slots := s.slots.set i (.live { r with loc := .rescue { m with orbit := none, final := true } })
      orders := s.orders ++ [Entry.fresh i r .release .none] } := updRescue_issue h _ _ _

theorem ownerActs_rescue {r : Record} {m : Rescue} (hloc : r.loc = .rescue m) (u : State) (i : Slot) (e : Entry) (a : Answer) :
    u.ownerActs i r e a = u.rescueAnswer i m r e a := by
  unfold State.ownerActs
  rw [hloc]

/-- A rescued call placed in its orbit, OCCUPIED, with its claim kept (R88, R112). -/
theorem rescued_placed {t : State} {i : Slot} {r : Record} (hr : t.slot i = .live r) (hh : r.held = none) (o : OrbitNo) (p : Pos) :
    t.placeInOrbit i o p = (t.setOrbit o (.occupied i)).setSlot i (.live { r with
      loc := .parked o, owner := some p, timer := some ⟨.parkRecall, t.tick + t.timing.parkRecall, false⟩ }) := by
  have hheld : { r with loc := .parked o, owner := some p }.held = none := hh
  rw [placeInOrbit_eq hr, armAt_eq hheld]

/-! ### The table of R88, row by row -/

section Rows

variable {t : State} {i : Slot} {m : Rescue} {r : Record} {e : Entry}

theorem rescueAnswer_connect {p : Pos} {l : LoopNo} (ho : e.order = .connect p l) (d : Byte) (b : Bool) :
    t.rescueAnswer i m r e (.done d) = t.rescueHold i { m with condition := .connected } ∧
      t.rescueAnswer i m r e (.refused b) = t.rescueToQueue i := by
  simp only [State.rescueAnswer, ho, and_self]

theorem rescueAnswer_hold (ho : e.order = .hold) (d : Byte) (b : Bool) :
    (m.orbit = none → t.rescueAnswer i m r e (.done d) = t.rescueToQueue i) ∧
      (∀ o, m.orbit = some o → t.rescueAnswer i m r e (.done d) = t.placeInOrbit i o m.failed) ∧
      t.rescueAnswer i m r e (.refused b) = (t.freeOrbits i).rescueRelease i m := by
  refine ⟨fun h => ?_, fun o h => ?_, ?_⟩ <;> simp only [State.rescueAnswer, ho] <;> rw [h]

theorem rescueAnswer_release (ho : e.order = .release) (d : Byte) (b : Bool) :
    t.rescueAnswer i m r e (.done d) = t.retire i false ∧
      (m.final = true → t.rescueAnswer i m r e (.refused b) = t.retire i false) ∧
      (m.final = false → m.condition = .connected → t.rescueAnswer i m r e (.refused b) = t.rescueHold i m) ∧
      (m.final = false → m.condition = .split → t.rescueAnswer i m r e (.refused b) = t.rescueToQueue i) := by
  refine ⟨by simp only [State.rescueAnswer, ho], fun h => ?_, fun h hc => ?_, fun h hc => ?_⟩ <;>
    simp only [State.rescueAnswer, ho, h, if_true, Bool.false_eq_true, if_false]
  · rw [if_pos hc]
  · rw [if_neg (by rw [hc]; decide)]

theorem rescueAnswer_split (ho : e.order = .split) (d : Byte) (b : Bool) :
    t.rescueAnswer i m r e (.done d) = t.rescueToQueue i ∧ t.rescueAnswer i m r e (.refused b) = t.rescueHold i m := by
  simp only [State.rescueAnswer, ho, and_self]

theorem ringing_iff (d : Byte) : ringResult d = .ringing ↔ d = 1 := by
  unfold ringResult
  by_cases h1 : d = 1
  · rw [if_pos h1]
    exact iff_of_true rfl h1
  · rw [if_neg h1]
    refine iff_of_false ?_ h1
    split <;> nofun

theorem rescueAnswer_ring {ext : Digits} (ho : e.order = .ringExt ext) (d : Byte) (b : Bool) :
    t.rescueAnswer i m r e (.done d) = (if d = 1 then (t.issue i .transfer .unscreened).setStep i 6 else t.rescueToQueue i) ∧
      t.rescueAnswer i m r e (.refused b) = t.rescueToQueue i := by
  refine ⟨?_, by simp only [State.rescueAnswer, ho]⟩
  simp only [State.rescueAnswer, ho]
  exact if_congr (ringing_iff d) rfl rfl

theorem rescueAnswer_transfer (ho : e.order = .transfer) (d : Byte) (b : Bool) :
    t.rescueAnswer i m r e (.done d) = (if e.mark = .screened then t.retire i false else t.extendTo i (r.dest.getD []) none) ∧
      t.rescueAnswer i m r e (.refused b) = t.issue i .dropDest .none := by
  simp only [State.rescueAnswer, ho, and_self]

theorem rescueAnswer_camp {ext : Digits} (ho : e.order = .camp ext) (d : Byte) (b : Bool) :
    t.rescueAnswer i m r e (.done d) = t.campAt i ext ∧ t.rescueAnswer i m r e (.refused b) = t.rescueToQueue i := by
  simp only [State.rescueAnswer, ho, and_self]

theorem rescueAnswer_dropDest (ho : e.order = .dropDest) (a : Answer) : t.rescueAnswer i m r e a = t.rescueToQueue i := by
  simp only [State.rescueAnswer, ho]

end Rows

end Sys2Proof.Machine

namespace Sys2Proof
open Sys2Proof.Machine

/-- Settles O47. -/
theorem rescuedCallsAreAnswered : Obligations.RescuedCallsAreAnswered := by
  refine ⟨fun s e r m d ha hr hloc hc hm hh => ?alone, fun s e r m q n d ha hr hloc ho hc hm hh => ?waiting⟩
  case alone =>
    intro t done refused toQueue freed retires holds
    have hset : t.settled e.slot r := dropEntry_settled hr
    have hacts := ownerActs_rescue hloc t e.slot e
    have hlet : t.letOut e.slot r = t.freeOrbits e.slot := by
      rw [State.letOut, hloc]
      rfl
    have viaDone {u : State} (hu : t.rescueAnswer e.slot m r e (.done d) = u)
        (hq : ∀ r', u.slot e.slot = .live r' → r'.claim = none ∧ r'.held = none) : exec done s = .next u.finishAll :=
      done_quiet ha hr ((hacts _).trans hu) hq
    have viaRefused {u : State} (hd : d ≠ 2) (hu : t.rescueAnswer e.slot m r e (.refused (d == 3)) = u)
        (hq : ∀ r', u.slot e.slot = .live r' → r'.claim = none ∧ r'.held = none) : exec refused s = .next u.finishAll :=
      refused_quiet ha hr hd ((hacts _).trans hu) hq
    have queued {c : Instr} (hexec : (∀ r', (t.rescueToQueue e.slot).slot e.slot = .live r' → r'.claim = none ∧ r'.held = none) →
        exec c s = .next (t.rescueToQueue e.slot).finishAll) : toQueue c := by
      obtain ⟨hshown, -, hother, hframe⟩ := recallFrom_spec hset (.inr (.inr ⟨m, hloc⟩)) .positionLost none
      have hcamp := hother (by rw [hloc]; nofun)
      rw [hcamp] at hframe
      unfold State.rescueToQueue at hexec
      generalize t.recallFrom e.slot .positionLost none = u at *
      refine ⟨u, hexec (recalled_quiet (s := t) (r := r) (why := .positionLost) (owner := none) ?_), hshown, hframe⟩
      generalize u.positions = ps at hframe
      rw [hframe]
    have retired {c : Instr} (hexec : exec c s = .next (t.retire e.slot false).finishAll) : retires c := by
      have hgone := retire_offLoop hset (by rw [hloc]; nofun) hm hc
      rw [hlet] at hgone
      rw [hgone] at hexec
      exact ⟨_, hexec, fun o => orbit_freed s e.slot o, rfl⟩
    have hretired : ∀ r', (t.retire e.slot false).slot e.slot = .live r' → r'.claim = none ∧ r'.held = none := by
      rw [retire_offLoop hset (by rw [hloc]; nofun) hm hc]
      exact quiet_free (slot_setSlot_self _ _ _)
    refine ⟨fun p l ho => ⟨?connectDone, fun hd => ?connectRefused⟩, fun ho => ⟨fun horb => ?holdQueue, fun o horb => ?holdPark,
      fun hd => ?holdRefused⟩, fun ho => ⟨?releaseDone, fun hd hf => ?releaseFinal, fun hd hf hcond => ?releaseHold,
      fun hd hf hcond => ?releaseQueue⟩, fun ho => ⟨?splitDone, fun hd => ?splitRefused⟩,
      fun ext ho => ⟨fun h1 => ?ringing, fun h1 => ?notRinging, fun hd => ?ringRefused⟩,
      fun ho => ⟨fun hk => ?screened, fun ext hk hdest => ?unscreened, fun hd => ?transferRefused⟩,
      fun ext ho => ⟨?campDone, fun hd => ?campRefused⟩, fun ho => ⟨?dropDone, fun hd => ?dropRefused⟩⟩
    case connectDone =>
      exact viaDone ((rescueAnswer_connect ho d false).1.trans (rescueHold_settled hset _)) (quiet_live (slot_setSlot_self t _ _) hc hh)
    case connectRefused => exact queued fun hq => viaRefused hd (rescueAnswer_connect ho d _).2 hq
    case holdQueue => exact queued fun hq => viaDone ((rescueAnswer_hold ho d false).1 horb) hq
    case holdPark =>
      exact viaDone (((rescueAnswer_hold ho d false).2.1 o horb).trans (rescued_placed hset.1 hh o m.failed))
        (quiet_live (slot_setSlot_self (t.setOrbit o (.occupied e.slot)) _ _) hc hh)
    case holdRefused =>
      have hfreed : (t.freeOrbits e.slot).settled e.slot r := hset
      exact ⟨_, viaRefused hd ((rescueAnswer_hold ho d _).2.2.trans (rescueRelease_settled hfreed m)) (quiet_live (slot_setSlot_self t _ _) hc hh),
        fun o => orbit_freed s e.slot o, rfl⟩
    case releaseDone => exact retired (viaDone (rescueAnswer_release ho d false).1 hretired)
    case releaseFinal => exact retired (viaRefused hd ((rescueAnswer_release ho d _).2.1 hf) hretired)
    case releaseHold =>
      have hheld := viaRefused hd (((rescueAnswer_release ho d _).2.2.1 hf hcond).trans (rescueHold_settled hset m))
        (quiet_live (slot_setSlot_self t _ _) hc hh)
      rw [show { m with orbit := none } = ({ m with condition := .connected, orbit := none } : Rescue) by rw [← hcond]] at hheld
      exact hheld
    case releaseQueue => exact queued fun hq => viaRefused hd ((rescueAnswer_release ho d _).2.2.2 hf hcond) hq
    case splitDone => exact queued fun hq => viaDone (rescueAnswer_split ho d false).1 hq
    case splitRefused =>
      exact viaRefused hd ((rescueAnswer_split ho d _).2.trans (rescueHold_settled hset m)) (quiet_live (slot_setSlot_self t _ _) hc hh)
    case ringing =>
      exact viaDone ((rescueAnswer_ring ho d false).1.trans ((if_pos h1).trans (issue_setStep hset _ _ _))) (quiet_live (slot_setSlot_self t _ _) hc hh)
    case notRinging => exact queued fun hq => viaDone ((rescueAnswer_ring ho d false).1.trans (if_neg h1)) hq
    case ringRefused => exact queued fun hq => viaRefused hd (rescueAnswer_ring ho d _).2 hq
    case screened => exact retired (viaDone ((rescueAnswer_transfer ho d false).1.trans (if_pos hk)) hretired)
    case unscreened =>
      have hne : ¬ e.mark = .screened := by rw [hk]; decide
      have hu : t.extendTo e.slot (r.dest.getD []) none = t.setSlot e.slot (.live { r with
          loc := .extended ext, step := 0, owner := none
          timer := some ⟨.noAnswer, s.tick + s.timing.noAnswer, false⟩ }) := by
        have hget : r.dest.getD [] = ext := by rw [hdest]; rfl
        have hheld : { r with loc := .extended ext, dest := some ext, step := 0, owner := none }.held = none := hh
        rw [hget, extendTo_eq hset.1, armAt_eq hheld, hdest]
        rfl
      exact viaDone ((rescueAnswer_transfer ho d false).1.trans ((if_neg hne).trans hu)) (quiet_live (slot_setSlot_self t _ _) hc hh)
    case transferRefused =>
      exact viaRefused hd ((rescueAnswer_transfer ho d _).2.trans (issue_fresh hset _ _)) (quiet_live hset.1 hc hh)
    case campDone =>
      have hheld : { r with loc := .camped ext, dest := some ext, step := 0 }.held = none := hh
      have hu := campAt_eq hset.1 ext
      rw [armAt_eq hheld] at hu
      exact ⟨_, viaDone ((rescueAnswer_camp ho d false).1.trans hu) (quiet_live (slot_setSlot_self (s := { t with camp := campWith t.camp ext e.slot }) _ _) hc hh),
        (campedOn_campAt rfl).1, (campedOn_campAt rfl).2, rfl⟩
    case campRefused => exact queued fun hq => viaRefused hd (rescueAnswer_camp ho d _).2 hq
    case dropDone => exact queued fun hq => viaDone (rescueAnswer_dropDest ho _) hq
    case dropRefused => exact queued fun hq => viaRefused hd (rescueAnswer_dropDest ho _) hq
  case waiting =>
    intro t
    have hset : t.settled e.slot r := dropEntry_settled hr
    have hacts := ownerActs_rescue hloc t e.slot e
    refine ⟨fun o horb => ?granted, fun hd => ?dropped⟩
    case granted =>
      have hplaced := (hacts _).trans (((rescueAnswer_hold ho d false).2.1 o horb).trans (rescued_placed hset.1 hh o m.failed))
      have hparked : ((t.setOrbit o (.occupied e.slot)).setSlot e.slot (.live { r with
          loc := .parked o, owner := some m.failed
          timer := some ⟨.parkRecall, s.tick + s.timing.parkRecall, false⟩ })).settled e.slot { r with
            loc := .parked o, owner := some m.failed
            timer := some ⟨.parkRecall, s.tick + s.timing.parkRecall, false⟩ } := ⟨slot_setSlot_self _ _ _, hset.2⟩
      refine (exec_done ha d).trans (congrArg Host.Outcome.next
        ((answered_settles hr hplaced (parked_granted hparked hc rfl rfl hh)).trans ?_))
      simp only [State.setSlot, Vector.set_set]
      rfl
    case dropped =>
      have hfreed : (t.freeOrbits e.slot).settled e.slot r := hset
      have hrel := (hacts _).trans ((rescueAnswer_hold ho d (d == 3)).2.2.trans (rescueRelease_settled hfreed m))
      have hdrop := reexamine_dropped (u := { t.freeOrbits e.slot with
          slots := t.slots.set e.slot (.live { r with loc := .rescue { m with orbit := none, final := true } })
          orders := t.orders ++ [Entry.fresh e.slot r .release .none] })
        (r := { r with loc := .rescue { m with orbit := none, final := true } }) (slot_setSlot_self t e.slot _) hc rfl (.inr rfl) nofun
      have hquiet := settleHeld_none (u := ((State.setSlot { t.freeOrbits e.slot with
          slots := t.slots.set e.slot (.live { r with loc := .rescue { m with orbit := none, final := true } })
          orders := t.orders ++ [Entry.fresh e.slot r .release .none] } e.slot
            (.live { r with claim := none, loc := .rescue { m with orbit := none, final := true } })).loopIdle q n).errorTone q)
        (i := e.slot) fun r' hr' => by
          have hlast := (slot_setSlot_self (s := { t with
            slots := t.slots.set e.slot (.live { r with loc := .rescue { m with orbit := none, final := true } }) }) e.slot
            (.live { r with claim := none, loc := .rescue { m with orbit := none, final := true } })).symm.trans hr'
          cases hlast
          exact hh
      refine ⟨_, (exec_refused ha hd).trans (congrArg Host.Outcome.next (answered_settles hr hrel
        ((congrArg (fun v => State.settleHeld v e.slot) hdrop).trans hquiet))), ?_, fun o => orbit_freed s e.slot o, ?_⟩
      · exact ((workAt_idled (s := s) (v := State.setSlot { t.freeOrbits e.slot with
          slots := t.slots.set e.slot (.live { r with loc := .rescue { m with orbit := none, final := true } })
          orders := t.orders ++ [Entry.fresh e.slot r .release .none] } e.slot
            (.live { r with claim := none, loc := .rescue { m with orbit := none, final := true } })) rfl q n)).errorTone_first
      · simp only [State.setSlot, Vector.set_set]
        rfl

end Sys2Proof
end

section
/-! PROOFS. Held expiries, and their settlement after the response to the record's order (R35, R36). -/

namespace Sys2Proof.Machine

/-- A held expiry whose record is still in place and settled is delivered. -/
theorem settleHeld_delivers {u : State} {i : Slot} {r : Record} {pu : Purpose} {tm : Timer} (hr : u.slot i = .live r)
    (hh : r.held = some pu) (ht : r.timer = some tm) (hp : u.inPlace r pu = true) (hf : u.inFlight i = false) :
    u.settleHeld i = (u.setSlot i (.live { r with held := none })).deliver i pu tm.deadline := by
  have hsettle : u.settleHeld i = (u.updRec i fun r => { r with held := none }).deliver i pu tm.deadline := by
    simp only [State.settleHeld, (record?_eq_some u i).2 hr, hh, ht, hp, hf, if_true, Bool.false_eq_true, if_false]
  rw [hsettle, updRec_slots_of_live hr]

/-- The same after a response that leaves no claim. -/
theorem delivered_after {u : State} {i : Slot} {r : Record} {pu : Purpose} {dl : Tick} (hr : u.settled i r) (hc : r.claim = none)
    (hh : r.held = some pu) (ht : r.timer = some ⟨pu, dl, true⟩) (hp : u.inPlace r pu = true) :
    (u.reexamine i).settleHeld i = (u.setSlot i (.live { r with held := none })).deliver i pu dl := by
  have hclaim : ∀ r', u.slot i = .live r' → r'.claim = none := fun r' hr' => by
    rw [hr.1] at hr'
    cases hr'
    exact hc
  rw [reexamine_unclaimed hclaim, settleHeld_delivers hr.1 hh ht hp (inFlight_of_settled hr)]

/-- An aging step of a record written last (R39, R40). -/
theorem agingDue_set {u : State} {i : Slot} {r : Record} {steps : Fin 16} (hf : ∀ e ∈ u.orders, e.slot ≠ i)
    (hsteps : steps.val = min 15 (r.aging.val + 1)) (d : Tick) :
    (u.setSlot i (.live r)).agingDue i d = { u with
      slots := u.slots.set i (.live { r with
        aging := steps, held := none
        timer := if steps.val < 15 then some ⟨.aging, rearmed u.tick d (u.tenant r.tenant).agingInterval, false⟩ else none })
      orders := u.orders ++ u.overflowEntries i r steps r.overflowSpent } := by
  have hset : (u.setSlot i (.live r)).settled i r := ⟨slot_setSlot_self _ _ _, hf⟩
  rw [agingDue_settled hset hsteps]
  simp only [State.setSlot, Vector.set_set]
  rfl

/-- A HELD loop that becomes RECALLING for a record written last (R83). -/
theorem holdRecallDue_set {u : State} {i : Slot} {r : Record} {p : Pos} {l : LoopNo} (hl : r.loc = .loop p l) (d : Tick) :
    (u.setSlot i (.live r)).holdRecallDue i d = ((u.setLoop p l (.recalling i)).raiseLoop p .holdRecall l).setSlot i
      (.live (r.armAt .escalate (rearmed u.tick d u.timing.escalation))) :=
  (holdRecallDue_loop (slot_setSlot_self _ _ _) hl d).trans
    (setSlot_setSlot ((u.setLoop p l (.recalling i)).raiseLoop p .holdRecall l) i _ _)

/-- A recall of a record written last (R44). -/
theorem recall_set {u : State} {i : Slot} {r : Record} (hf : ∀ e ∈ u.orders, e.slot ≠ i) (why : RecallReason) (owner : Option Pos) :
    u.thresholdShown ((u.setSlot i (.live r)).recall i why owner) r.tenant ∧
      (u.setSlot i (.live r)).recall i why owner = { u with
        slots := u.slots.set i (.live (u.recalled r why owner)), queue := u.queue ++ [i]
        orders := u.orders ++ u.nightEntries i r
        positions := ((u.setSlot i (.live r)).recall i why owner).positions } := by
  have hset : (u.setSlot i (.live r)).settled i r := ⟨slot_setSlot_self _ _ _, hf⟩
  obtain ⟨hshown, hframe⟩ := recall_spec hset why owner
  generalize (u.setSlot i (.live r)).recall i why owner = w at *
  refine ⟨thresholdShown_congr hshown rfl rfl rfl rfl rfl rfl, hframe.trans ?_⟩
  simp only [State.setSlot, Vector.set_set]
  rfl

end Sys2Proof.Machine

namespace Sys2Proof
open Sys2Proof.Machine

/-- Settles O20. -/
theorem expiryIsHeldOrDelivered : Obligations.ExpiryIsHeldOrDelivered := by
  refine ⟨fun s i r pu d hdue hf => ?held, fun s i r pu d hdue hr => ?delivered, fun s i pu h => ?none,
    fun s i r pu tm hr hh ht => ⟨fun hp => ?moved, fun hp hf => ?kept, fun hp hf => ?settled⟩,
    fun s e r pu dl d ha hr hm hh ht => ?answered⟩
  case held => exact (exec_expiryCommand s pu i).trans (by rw [expiry_held hdue ((inFlight_iff s i).2 hf)]; rfl)
  case delivered =>
    refine (exec_expiryCommand s pu i).trans ?_
    rw [expiry_delivered hdue hr]
    cases pu <;> rfl
  case none => exact (exec_expiryCommand s pu i).trans (by rw [expiry_none _ h])
  case moved =>
    simp only [State.settleHeld, (record?_eq_some s i).2 hr, hh, ht, hp, Bool.false_eq_true, if_false]
    rw [updRec_slots_of_live hr]
    rfl
  case kept =>
    simp only [State.settleHeld, (record?_eq_some s i).2 hr, hh, ht, hp, (inFlight_iff s i).2 hf, if_true]
  case settled => exact settleHeld_delivers hr hh ht hp ((inFlight_eq_false s i).2 hf)
  case answered =>
    intro t refused tones
    have hset : t.settled e.slot r := dropEntry_settled hr
    have viaRefused {u v : State} (hd : d ≠ 2) (hu : t.ownerActs e.slot r e (.refused (d == 3)) = u)
        (hv : (u.reexamine e.slot).settleHeld e.slot = v) : exec refused s = .next v.finishAll :=
      (exec_refused ha hd).trans (congrArg Host.Outcome.next (answered_settles hr hu hv))
    refine ⟨fun ext dial hc hloc ho hpu => ?busy, fun dial steps hc hloc ho hpu hd hsteps => ?divert,
      fun p l j x y hc hloc hl ho hpu => ?retrieved, fun p l j hc hloc hl hpu hd ho => ?recalling,
      fun p l j hc hloc hl hpu hd ho => ?escalated, fun p l x y steps hc hloc ho hpu hd hsteps => ?claimQueued,
      fun p l x y o hc hloc ho hpu hd => ?claimParked⟩ <;> subst hpu
    case busy =>
      have hacts : t.ownerActs e.slot r e (.done 2) = t := by
        simp only [State.ownerActs, hloc, ho]
        rfl
      have hplace : t.inPlace r .campTimeout = true := by
        simp only [State.inPlace, hloc]
      have hheld : (t.setSlot e.slot (.live { r with held := none })).settled e.slot { r with held := none } :=
        ⟨slot_setSlot_self _ _ _, hset.2⟩
      have hretrieve := retrieveDue_settled hheld ht
      refine (exec_done ha 2).trans (congrArg Host.Outcome.next ((answered_settles hr hacts
        ((delivered_after hset hc hh ht hplace).trans hretrieve)).trans ?_))
      simp only [State.setSlot, Vector.set_set]
      rw [← ht]
      rfl
    case divert =>
      intro spent
      have hacts : t.ownerActs e.slot r e (.refused (d == 3)) = t.setSlot e.slot (.live { r with overflowSpent := spent }) := by
        have hdivert : t.ownerActs e.slot r e (.refused (d == 3)) = t.divertAnswer e.slot e (.refused (d == 3)) := by
          unfold State.ownerActs
          rw [hloc, ho]
        exact hdivert.trans (divertAnswer_refused hset.1 e _)
      have hspent : (t.setSlot e.slot (.live { r with overflowSpent := spent })).settled e.slot { r with overflowSpent := spent } :=
        ⟨slot_setSlot_self _ _ _, hset.2⟩
      have hplace : (t.setSlot e.slot (.live { r with overflowSpent := spent })).inPlace { r with overflowSpent := spent } .aging =
          true := by
        simp only [State.inPlace, hloc, hm]
        rfl
      refine (viaRefused hd hacts ((delivered_after hspent hc hh ht hplace).trans
        (agingDue_set (u := t.setSlot e.slot (.live { r with overflowSpent := spent }))
          (r := { r with overflowSpent := spent, held := none }) hset.2 hsteps dl))).trans ?_
      simp only [State.setSlot, Vector.set_set]
      rfl
    case retrieved =>
      have hacts := (ownerActs_loop hloc t e.slot e (.done d)).trans
        ((loopAnswer_retrieval (u := t) _ (.inl hl) ho).trans (retrievalAnswer_done hset.1 p l d))
      exact ⟨_, done_quiet ha hr hacts (quiet_live (slot_setSlot_self (t.setLoop p l (.talk e.slot)) _ _) hc rfl),
        workAt_retrieved rfl p l e.slot _, rfl⟩
    case recalling =>
      have hacts : t.ownerActs e.slot r e (.refused (d == 3)) = t.orderFailed p l := by
        refine (ownerActs_loop hloc t e.slot e _).trans ?_
        obtain ⟨x, y, ho⟩ | ho := ho
        · exact loopAnswer_retrieval (u := t) _ (.inl hl) ho
        · exact loopAnswer_release (u := t) _ (.inr (.inl hl)) ho
      have hfailed : (t.orderFailed p l).settled e.slot r := updPos_settled hset p _
      have hwork := workAt_raised (s := s) (v := t) rfl rfl p l .orderFailed
      have hplace : (t.orderFailed p l).inPlace r .holdRecall = true := by
        have hloop : (t.orderFailed p l).loop p l = .held j := hwork.1.trans hl
        simp only [State.inPlace, hloc, hloop]
        rfl
      have hdue := holdRecallDue_set (u := t.orderFailed p l) (i := e.slot) (r := { r with held := none }) hloc dl
      exact ⟨_, viaRefused hd hacts ((delivered_after hfailed hc hh ht hplace).trans hdue),
        ((hwork.setLoop (.recalling e.slot)).raiseLoop rfl .holdRecall).of_positions rfl, rfl⟩
    case escalated =>
      have hacts : t.ownerActs e.slot r e (.refused (d == 3)) = t.orderFailed p l := by
        refine (ownerActs_loop hloc t e.slot e _).trans ?_
        obtain ⟨x, y, ho⟩ | ho := ho
        · exact loopAnswer_retrieval (u := t) _ (.inr hl) ho
        · exact loopAnswer_release (u := t) _ (.inr (.inr hl)) ho
      have hfailed : (t.orderFailed p l).settled e.slot r := updPos_settled hset p _
      have hwork := workAt_raised (s := s) (v := t) rfl rfl p l .orderFailed
      have hplace : (t.orderFailed p l).inPlace r .escalate = true := by
        have hloop : (t.orderFailed p l).loop p l = .recalling j := hwork.1.trans hl
        simp only [State.inPlace, hloc, hloop]
        rfl
      have hdue := escalateDue_loop (s := (t.orderFailed p l).setSlot e.slot (.live { r with held := none }))
        (slot_setSlot_self _ _ _) hloc
      obtain ⟨hshown, hframe⟩ := recall_set (u := (t.orderFailed p l).loopIdle p l) (i := e.slot) (r := { r with held := none })
        hset.2 .hold (some p)
      exact ⟨_, _, viaRefused hd hacts ((delivered_after hfailed hc hh ht hplace).trans hdue), hwork.loopIdle, hshown, hframe⟩
    case claimQueued =>
      have hacts := (ownerActs_claim ho (.inl hloc) hc rfl t e.slot (.refused (d == 3))).trans (claimRefused_live hset.1 ⟨p, l, true⟩)
      rw [if_neg (by rw [ht]; exact fun hc => nomatch hc.2)] at hacts
      have hended : ((((t.setSlot e.slot (.live { r with claim := none })).loopIdle p l).raiseLoop p .orderFailed l)).settled e.slot
          { r with claim := none } := ⟨slot_setSlot_self t e.slot _, hset.2⟩
      have hplace : ((((t.setSlot e.slot (.live { r with claim := none })).loopIdle p l).raiseLoop p .orderFailed l)).inPlace
          { r with claim := none } .aging = true := by
        simp only [State.inPlace, hloc, hm]
        rfl
      have hrefilled := setSlot_setSlot ((t.loopIdle p l).raiseLoop p .orderFailed l) e.slot (.live { r with claim := none })
        (.live { r with claim := none, held := none })
      refine ⟨_, viaRefused hd hacts ((delivered_after hended rfl hh ht hplace).trans
        ((congrArg (fun u => u.agingDue e.slot dl) hrefilled).trans
          (agingDue_set (u := (t.loopIdle p l).raiseLoop p .orderFailed l) (r := { r with claim := none, held := none })
            hset.2 hsteps dl))), ?_, rfl⟩
      exact ((workAt_idled (v := t) rfl p l).raiseLoop_first rfl _).of_positions rfl
    case claimParked =>
      have hacts := (ownerActs_claim ho (.inr ⟨o, hloc⟩) hc rfl t e.slot (.refused (d == 3))).trans
        (claimRefused_live hset.1 ⟨p, l, true⟩)
      rw [if_neg (by rw [hloc]; exact fun hc => nomatch hc.1)] at hacts
      have hended : ((((t.setSlot e.slot (.live { r with claim := none })).loopIdle p l).raiseLoop p .orderFailed l)).settled e.slot
          { r with claim := none } := ⟨slot_setSlot_self t e.slot _, hset.2⟩
      have hplace : ((((t.setSlot e.slot (.live { r with claim := none })).loopIdle p l).raiseLoop p .orderFailed l)).inPlace
          { r with claim := none } .parkRecall = true := by
        simp only [State.inPlace, hloc]
      have hrefilled := setSlot_setSlot ((t.loopIdle p l).raiseLoop p .orderFailed l) e.slot (.live { r with claim := none })
        (.live { r with claim := none, held := none })
      have hdue := parkRecallDue_parked (s := ((t.loopIdle p l).raiseLoop p .orderFailed l).setSlot e.slot
        (.live { r with claim := none, held := none })) (slot_setSlot_self _ _ _) hloc
      obtain ⟨hshown, hframe⟩ := recall_set (u := ((t.loopIdle p l).raiseLoop p .orderFailed l).freeOrbits e.slot) (i := e.slot)
        (r := { r with claim := none, held := none }) hset.2 .park r.owner
      refine ⟨((t.loopIdle p l).raiseLoop p .orderFailed l).freeOrbits e.slot, _,
        viaRefused hd hacts ((delivered_after hended rfl hh ht hplace).trans
          ((congrArg (fun u => u.parkRecallDue e.slot) hrefilled).trans hdue)), ?_, hshown, fun z => ?_, ?_⟩
      · exact ((workAt_idled (v := t) rfl p l).raiseLoop_first rfl _).of_positions rfl
      · exact (congrArg (fun u => State.orbit u z) hframe).trans (orbit_freed s e.slot z)
      · generalize (State.recall _ _ _ _) = w at hframe
        have horbits := congrArg State.orbits hframe
        refine hframe.trans ?_
        rw [horbits]
        rfl

end Sys2Proof
end

section
/-! PROOFS. The emptied Call Table (R142), and admission (R12, R13). -/

namespace Sys2Proof.Machine

/-! ### The emptied Call Table -/

theorem clearCalls_view (s : State) (p : Pos) : s.clearCalls.view p = s.viewKept p (fun a => a.loop.isNone) (s.view p) := by
  have hkeep : (fun a : Alert => a.loop == none) = fun a => a.loop.isNone := by
    funext a
    cases a.loop <;> rfl
  have hview : s.clearCalls.view p = (s.updPos p fun q => q.keepAlerts fun a => a.loop == none).view p := by
    simp only [State.view, clearCalls_pos, pos_updPos_self]
    rfl
  rw [hview, hkeep]
  exact view_keepAlerts s p _ _ fun _ => ⟨rfl, rfl⟩

theorem sameSettings_emptied (q : Position) : q.sameSettings q.emptied := ⟨rfl, rfl, rfl, rfl, rfl, rfl, rfl, rfl, rfl, rfl⟩

/-! ### The checks of R12 -/

theorem digits?_isSome {bs : List Byte} (h : ∀ b ∈ bs, b.toNat ≤ 9) : ∃ ds, Decode.digits? bs = some ds := by
  induction bs with
  | nil => exact ⟨[], rfl⟩
  | cons b bs ih =>
    obtain ⟨ds, hds⟩ := ih fun x hx => h x (List.mem_cons_of_mem _ hx)
    have hb : Decode.digit? b = some ⟨b.toNat, Nat.lt_succ_of_le (h b List.mem_cons_self)⟩ := dif_pos _
    exact ⟨_, by rw [Decode.digits?, hb, hds]⟩

theorem originOk_iff (b : Byte) : originOk b = true ↔ b = 1 ∨ b = 2 := by
  simp only [originOk, Bool.or_eq_true, beq_iff_eq]

/-- The first check of R12 declines exactly the invalid arrivals. -/
theorem arrivalDigits_invalid {ref : CallRef} {t c o : Byte} {ds : List Byte}
    (h : ref = 0 ∨ (o ≠ 1 ∧ o ≠ 2) ∨ 16 < ds.length ∨ ∃ d ∈ ds, 9 < d.toNat) : arrivalDigits ⟨ref, t, c, o, ds⟩ = none := by
  rw [arrivalDigits]
  split
  case isFalse => rfl
  case isTrue hok =>
    obtain ⟨href, horigin, hlen⟩ := hok
    obtain h | ⟨h1, h2⟩ | h | h := h
    · exact absurd h href
    · exact ((originOk_iff o).1 horigin).elim (absurd · h1) (absurd · h2)
    · exact absurd hlen (Nat.not_le_of_lt h)
    · exact Decode.digits?_eq_none h

theorem arrivalDigits_valid {ref : CallRef} {t c o : Byte} {ds : List Byte}
    (h : ¬ (ref = 0 ∨ (o ≠ 1 ∧ o ≠ 2) ∨ 16 < ds.length ∨ ∃ d ∈ ds, 9 < d.toNat)) :
    ∃ digits, arrivalDigits ⟨ref, t, c, o, ds⟩ = some digits := by
  push Not at h
  obtain ⟨href, horigin, hlen, hdigits⟩ := h
  have hok : originOk o = true := (originOk_iff o).2 (or_iff_not_imp_left.2 fun h1 => horigin h1)
  obtain ⟨digits, hd⟩ := digits?_isSome hdigits
  exact ⟨digits, (if_pos ⟨href, hok, hlen⟩).trans hd⟩

theorem servedTenant_eq {s : State} {b : Byte} (h : b.toNat < 16) (hin : (s.tenant ⟨b.toNat, h⟩).inService = true) :
    s.servedTenant b = some ⟨b.toNat, h⟩ := by
  rw [State.servedTenant, dif_pos h, if_pos hin]

theorem servedTenant_none {s : State} {b : Byte} (h : ¬ ∃ h : b.toNat < 16, (s.tenant ⟨b.toNat, h⟩).inService = true) :
    s.servedTenant b = none := by
  rw [State.servedTenant]
  split
  · next hb => exact if_neg fun hin => h ⟨hb, hin⟩
  · rfl

theorem holds_iff (x : SlotState) (ref : CallRef) :
    x.holds ref = true ↔ (∃ r, x = .live r ∧ r.ref = ref) ∨ x = .retiring ref := by
  cases x with
  | free => simp [SlotState.holds]
  | live r => simp [SlotState.holds]
  | retiring ref' => simp [SlotState.holds]

/-- The third check of R12: some slot holds the reference. -/
theorem byRef_isSome_iff (s : State) (ref : CallRef) :
    (s.byRef ref).isSome = true ↔ ∃ i, (∃ r, s.slot i = .live r ∧ r.ref = ref) ∨ s.slot i = .retiring ref := by
  simp only [State.byRef, List.find?_isSome, List.mem_finRange, true_and, holds_iff]

theorem lowestFree_none {s : State} (h : ∀ i, s.slot i ≠ .free) : s.lowestFree = none :=
  List.find?_eq_none.2 fun i _ => by simpa using h i

theorem lowestFree_eq {s : State} {i : Slot} (hi : s.slot i = .free) (h : ∀ j < i, s.slot j ≠ .free) : s.lowestFree = some i :=
  find?_finRange_first (beq_iff_eq.2 hi) fun j hj => beq_eq_false_iff_ne.2 (h j hj)

theorem exec_arrive {s : State} (up : s.link = .up) {hi lo t c o n : Byte} {ds : List Byte} (hlen : ds.length = n.toNat) :
    exec (.arrive (hi :: lo :: t :: c :: o :: n :: ds)) s = .next (s.arrival ⟨hi ++ lo, t, c, o, ds⟩) := by
  have harm : exec (.arrive (hi :: lo :: t :: c :: o :: n :: ds)) s = execArrive (hi :: lo :: t :: c :: o :: n :: ds) s := rfl
  rw [harm, execArrive, Decode.parseArrive_eq hlen, decoded_some, whileUp_up up]

theorem clampPrio_eq {c : Byte} {prio : Fin 4} (h : prio.val = min 3 c.toNat) : clampPrio c = prio := by
  rw [clampPrio]
  split
  · exact Fin.ext (by simp only [h]; omega)
  · exact Fin.ext (by simp only [h]; omega)

/-- An admission (R13): the record, the tail of the queue, CALL_TAKEN, the night DIVERT, and the threshold. -/
theorem admitted_spec {s : State} {i : Slot} {r r' : Record} (haging : r.aging = 0) (hf : ∀ e ∈ s.orders, e.slot ≠ i)
    (hr : r.armAt .aging (s.tick + (s.tenant r.tenant).agingInterval) = r') :
    s.thresholdShown (s.admitted i r) r.tenant ∧ s.admitted i r = { s with
      slots := s.slots.set i (.live r'), queue := s.queue ++ [i], orders := s.orders ++ s.nightEntries i r'
      xout := s.xout ++ [.callTaken r.ref i], positions := (s.admitted i r).positions } := by
  have htenant : r'.tenant = r.tenant := by subst hr; rfl
  have hlive : (s.setSlot i (.live r')).slot i = .live r' := slot_setSlot_self _ _ _
  obtain ⟨hshown, hjoin⟩ := joinTail_shown hlive
  have hsettled : (((s.setSlot i (.live r')).joinTail i).transmit (.callTaken r.ref i)).settled i r' := by
    rw [hjoin]; exact ⟨hlive, hf⟩
  have hentries : (((s.setSlot i (.live r')).joinTail i).transmit (.callTaken r.ref i)).nightEntries i r' = s.nightEntries i r' := by
    rw [hjoin]; rfl
  have horders : (((s.setSlot i (.live r')).joinTail i).transmit (.callTaken r.ref i)).orders = s.orders := by rw [hjoin]; rfl
  rw [admitted_eq s i haging, hr, nightJoin_settled hsettled, hentries, horders, ← htenant]
  refine ⟨thresholdShown_congr hshown rfl rfl rfl rfl rfl rfl, ?_⟩
  rw [hjoin]
  rfl

end Sys2Proof.Machine

namespace Sys2Proof
open Sys2Proof.Machine

/-- Settles O31. -/
theorem restartEmptiesTheCallTable : Obligations.RestartEmptiesTheCallTable := by
  intro s x c up hc
  have hexec : exec c s = .next s.clearCalls.finishAll := by
    obtain rfl | rfl := hc
    · exact congrArg Host.Outcome.next (whileUp_up up ..)
    · exact congrArg Host.Outcome.next (if_pos up)
  exact ⟨s.clearCalls, hexec, rfl, clearCalls_slot s, clearCalls_orbit s, fun p =>
    ⟨by rw [clearCalls_pos]; exact sameSettings_emptied _, clearCalls_loop s p, clearCalls_view s p, by rw [clearCalls_pos]; rfl,
      by rw [clearCalls_pos]; rfl⟩⟩

/-- Settles O32, check by check. -/
theorem arriveIsDeclined : Obligations.ArriveIsDeclined := by
  intro s hi lo t c o n ds up hlen ref invalid served known answer
  have hexec {u : State} (h : s.arrival ⟨ref, t, c, o, ds⟩ = u) :
      exec (.arrive (hi :: lo :: t :: c :: o :: n :: ds)) s = .next u := (exec_arrive up hlen).trans (congrArg _ h)
  refine ⟨fun hinv => ?invalid, fun hval hserved => ?tenant, fun hval ⟨ht, hin⟩ hknown => ?duplicate,
    fun hval ⟨ht, hin⟩ hknown hfull => ?full⟩
  case invalid => exact hexec (by rw [State.arrival, arrivalDigits_invalid hinv]; rfl)
  all_goals obtain ⟨digits, hd⟩ := arrivalDigits_valid (t := t) (c := c) hval
  case tenant =>
    refine hexec ?_
    simp only [State.arrival, hd, servedTenant_none hserved]
    rfl
  case duplicate =>
    refine hexec ?_
    simp only [State.arrival, hd, servedTenant_eq ht hin]
    rw [if_pos ((byRef_isSome_iff s ref).2 hknown)]
    simp only [State.protocolError, State.transmit, List.append_assoc]
    rfl
  case full =>
    refine hexec ?_
    simp only [State.arrival, hd, servedTenant_eq ht hin]
    rw [if_neg fun h => hknown ((byRef_isSome_iff s ref).1 h), lowestFree_none hfull]
    rfl

/-- Settles O33. -/
theorem arriveIsAdmitted : Obligations.ArriveIsAdmitted := by
  intro s ref t c o prio ds i up href horigin hlen hprio hin hfresh hi hlow hf r
  have ht : (BitVec.ofNat 8 t.val).toNat = t.val := by
    rw [BitVec.toNat_ofNat]
    exact Nat.mod_eq_of_lt (by omega)
  have hcount : (ds.map fun d : Fin 10 => BitVec.ofNat 8 d.val).length = (BitVec.ofNat 8 ds.length).toNat := by
    rw [List.length_map, BitVec.toNat_ofNat]
    exact (Nat.mod_eq_of_lt (by omega)).symm
  have hdigits : arrivalDigits ⟨ref, BitVec.ofNat 8 t.val, c, o, ds.map fun d : Fin 10 => BitVec.ofNat 8 d.val⟩ = some ds :=
    (if_pos ⟨href, (originOk_iff o).2 horigin, by rwa [List.length_map]⟩).trans (Decode.digits?_map_ofNat ds)
  have hserved : s.servedTenant (BitVec.ofNat 8 t.val) = some t := by
    have hlt : (BitVec.ofNat 8 t.val).toNat < 16 := by rw [ht]; exact t.isLt
    have htenant : (⟨(BitVec.ofNat 8 t.val).toNat, hlt⟩ : TenantNo) = t := Fin.ext ht
    exact (servedTenant_eq hlt (by rw [htenant]; exact hin)).trans (congrArg some htenant)
  have hknown : ¬ (s.byRef ref).isSome = true := fun h => by
    obtain ⟨j, ⟨r', hlive, hr'⟩ | hret⟩ := (byRef_isSome_iff s ref).1 h
    · exact (hfresh j).1 r' hlive hr'
    · exact (hfresh j).2 hret
  have hexec := exec_arrive up (hi := ref.extractLsb' 8 8) (lo := ref.extractLsb' 0 8) (t := BitVec.ofNat 8 t.val) (c := c)
    (o := o) hcount
  have hpair : ref.extractLsb' 8 8 ++ ref.extractLsb' 0 8 = ref := pair_wordBytes ref
  rw [hpair] at hexec
  obtain ⟨hshown, hframe⟩ := admitted_spec (s := s) (i := i)
    (r := newRecord ⟨ref, BitVec.ofNat 8 t.val, c, o, ds.map fun d : Fin 10 => BitVec.ofNat 8 d.val⟩ t ds) (r' := r) rfl hf
    (by simp only [newRecord, clampPrio_eq hprio]; rfl)
  refine ⟨_, hexec.trans (congrArg Host.Outcome.next ?_), hshown, hframe⟩
  simp only [State.arrival, hdigits, hserved]
  rw [if_neg hknown, lowestFree_eq hi hlow]

end Sys2Proof
end

section
/-! PROOFS. A step repeated until it can do no more, and the sending of orders (R127). -/

namespace Sys2Proof.Machine

/-! ### A step repeated as often as it may find something to do -/

section Exhaust
variable {σ α : Type} {f : σ → σ} {can : σ → Prop} {work : σ → Nat}

theorem foldl_idle_step (idle : ∀ s, ¬ can s → f s = s) (xs : List α) {s : σ} (h : ¬ can s) : xs.foldl (fun t _ => f t) s = s := by
  induction xs with
  | nil => rfl
  | cons x xs ih => rw [List.foldl_cons, idle s h, ih]

/-- With as many rounds as there is work, nothing is left to do. -/
theorem foldl_exhausts (idle : ∀ s, ¬ can s → f s = s) (less : ∀ s, can s → work (f s) < work s) (xs : List α) (s : σ)
    (h : work s ≤ xs.length) : ¬ can (xs.foldl (fun t _ => f t) s) := by
  induction xs generalizing s with
  | nil => exact fun hc => absurd (less s hc) (by simp only [List.length_nil] at h; omega)
  | cons x xs ih =>
    by_cases hc : can s
    · refine ih (f s) ?_
      have := less s hc
      rw [List.length_cons] at h
      omega
    · rw [foldl_idle_step idle _ hc]
      exact hc

/-- One round taken beforehand makes no difference. -/
theorem foldl_after_step (idle : ∀ s, ¬ can s → f s = s) (less : ∀ s, can s → work (f s) < work s) (xs : List α) (s : σ)
    (h : work s ≤ xs.length) : xs.foldl (fun t _ => f t) (f s) = xs.foldl (fun t _ => f t) s := by
  induction xs generalizing s with
  | nil => exact idle s fun hc => absurd (less s hc) (by simp only [List.length_nil] at h; omega)
  | cons x xs ih =>
    by_cases hc : can s
    · refine ih (f s) ?_
      have := less s hc
      rw [List.length_cons] at h
      omega
    · rw [idle s hc]

end Exhaust

/-! ### Sending -/

/-- Whether R127 allows a sending and an entry waits for one. -/
def State.sends (s : State) : Prop := s.maySend = true ∧ s.oldestWaiting ≠ none

theorem maySend_iff (s : State) : s.maySend = true ↔ s.link = .up ∧ s.paused = false ∧ s.window.length < 8 := by
  simp only [State.maySend, Bool.and_eq_true, beq_iff_eq, Bool.not_eq_true', decide_eq_true_eq, and_assoc]
  rfl

theorem sendOne_of_not_sends (s : State) (h : ¬ s.sends) : s.sendOne = s := by
  obtain hsame | ⟨e, hmay, he, -⟩ := sendOne_cases s
  · exact hsame
  · exact absurd ⟨hmay, by rw [he]; exact Option.some_ne_none e⟩ h

theorem sendOne_window_of_sends (s : State) (h : s.sends) : 8 - s.sendOne.window.length < 8 - s.window.length := by
  have hroom := ((maySend_iff s).1 h.1).2.2
  obtain ⟨e, he⟩ := Option.ne_none_iff_exists'.1 h.2
  rw [State.sendOne, if_pos h.1, he]
  simp only [List.length_append, List.length_singleton]
  omega

theorem sendOrders_of_not_sends {s : State} (h : ¬ s.sends) : s.sendOrders = s := foldl_idle_step sendOne_of_not_sends _ h

/-- The sending goes on until R127 allows no more or no entry waits. -/
theorem sendOrders_exhausts (s : State) : ¬ s.sendOrders.sends :=
  foldl_exhausts (work := fun t : State => 8 - t.window.length) sendOne_of_not_sends sendOne_window_of_sends _ s (Nat.sub_le 8 _)

theorem sendOrders_sendOne (s : State) : s.sendOne.sendOrders = s.sendOrders :=
  foldl_after_step (work := fun t : State => 8 - t.window.length) sendOne_of_not_sends sendOne_window_of_sends _ s (Nat.sub_le 8 _)

theorem oldestWaiting_of_split {s : State} {a b : List Entry} {e : Entry} (ho : s.orders = a ++ e :: b) (he : e.state = .waiting)
    (ha : ∀ x ∈ a, x.state ≠ .waiting) : s.oldestWaiting = some e := by
  rw [State.oldestWaiting, ho, List.find?_append, List.find?_eq_none.2 fun x hx => by simpa using ha x hx, List.find?_cons, he]
  rfl

theorem oldestWaiting_none {s : State} (h : ∀ x ∈ s.orders, x.state ≠ .waiting) : s.oldestWaiting = none :=
  List.find?_eq_none.2 fun x hx => by simpa using h x hx

end Sys2Proof.Machine

namespace Sys2Proof
open Sys2Proof.Machine

/-- Settles O12. -/
theorem orderSendSendsTheOldestWaiting : Obligations.OrderSendSendsTheOldestWaiting := by
  refine ⟨fun s a b e hs up hpause hroom ho he ha => ?sent, fun s h => ?none⟩
  case sent =>
    obtain ⟨hn, -⟩ := hs
    have hsend : s.sendOne = { s with
        orders := a ++ { e with state := .sent (s.tick + s.timing.orderTimeout) false } :: b
        window := s.window ++ [e.slot], xout := s.xout ++ [.order e.order e.ref] } := by
      rw [State.sendOne, if_pos ((maySend_iff s).2 ⟨up, hpause, hroom⟩), oldestWaiting_of_split ho he ha]
      simp only [updEntry_split hn ho]
    exact ⟨congrArg Host.Outcome.next hsend, by rw [← hsend, State.finishOrders, State.finishOrders, sendOrders_sendOne]⟩
  case none =>
    have hnot : ¬ s.sends := fun ⟨hmay, hwait⟩ => by
      obtain ⟨up, hpause, hroom⟩ := (maySend_iff s).1 hmay
      obtain h | h | h | h := h
      · exact h up
      · rw [hpause] at h
        cases h
      · exact absurd hroom (Nat.not_lt_of_le h)
      · exact hwait (oldestWaiting_none h)
    exact ⟨congrArg Host.Outcome.next (sendOne_of_not_sends s hnot), by rw [State.finishOrders, sendOrders_of_not_sends hnot]⟩

end Sys2Proof
end

section
/-! PROOFS. The pictures brought in step (R156). -/

namespace Sys2Proof.Machine

/-! ### The items of one position -/

/-- The transmit queue entries that stay when the given items are brought in step. -/
def staysFor (differs : Item → Bool) (its : List Item) : TxEntry → Bool
  | .tone _ => true
  | .item it forced => forced || differs it || decide (it ∉ its)

/-- The items that join the tail of a transmit queue. -/
def joining (differs : Item → Bool) (its : List Item) (txq : List TxEntry) : List TxEntry :=
  (its.filter fun it => differs it && !txq.any fun e => e.isItem it).map fun it => .item it false

theorem isItem_iff (e : TxEntry) (it : Item) : e.isItem it = true ↔ ∃ forced, e = .item it forced := by
  cases e with
  | tone x => exact ⟨nofun, nofun⟩
  | item it' forced =>
    refine beq_iff_eq.trans ⟨?_, ?_⟩
    · rintro rfl
      exact ⟨forced, rfl⟩
    · rintro ⟨_, h⟩
      cases h
      rfl

theorem staysFor_cons_of_differs {d : Item → Bool} {it : Item} {its : List Item} (h : d it = true) (e : TxEntry) :
    staysFor d (it :: its) e = staysFor d its e := by
  cases e with
  | tone _ => rfl
  | item it' forced =>
    by_cases hit : it' = it
    · simp [staysFor, hit, h]
    · simp [staysFor, hit]

theorem staysFor_cons_of_not_differs {d : Item → Bool} {it : Item} {its : List Item} (h : d it = false) (hn : it ∉ its)
    (e : TxEntry) : staysFor d (it :: its) e = (staysFor d its e && e != .item it false) := by
  cases e with
  | tone _ => rfl
  | item it' forced =>
    by_cases hit : it' = it
    · cases forced <;> simp [staysFor, hit, h, hn]
    · simp [staysFor, hit]

/-- An item other than those given joins as it did before. -/
theorem joining_congr {d : Item → Bool} {its : List Item} {a b : List TxEntry}
    (h : ∀ x ∈ its, (a.any fun e => e.isItem x) = b.any fun e => e.isItem x) : joining d its a = joining d its b := by
  refine congrArg (List.map _) (List.filter_congr fun x hx => ?_)
  rw [h x hx]

/-- The transmit queue after several items, each given once. -/
theorem queueItems_txq (d : Item → Bool) (its : List Item) (hn : its.Nodup) (q : Position) :
    (its.foldl (fun q it => q.queueItem it (d it)) q).txq = q.txq.filter (staysFor d its) ++ joining d its q.txq := by
  induction its generalizing q with
  | nil =>
    have hall : q.txq.filter (staysFor d []) = q.txq := List.filter_eq_self.2 fun e _ => by cases e <;> simp [staysFor]
    rw [hall]
    exact (List.append_nil _).symm
  | cons it its ih =>
    obtain ⟨hit, hn⟩ := List.nodup_cons.1 hn
    have hother (x : Item) (hx : x ∈ its) : (x == it) = false := beq_eq_false_iff_ne.2 fun hc => hit (hc ▸ hx)
    rw [List.foldl_cons, ih hn]
    cases hd : d it with
    | true =>
      rw [List.filter_congr fun e _ => staysFor_cons_of_differs hd e]
      by_cases hin : (q.txq.any fun e => e.isItem it) = true
      · rw [Position.queueItem, if_pos rfl, if_pos hin, joining, joining, List.filter_cons, hd, hin]
        rfl
      · rw [Position.queueItem, if_pos rfl, if_neg hin]
        have hstay : staysFor d its (.item it false) = true := by simp [staysFor, hd]
        have hjoin : joining d its (q.txq ++ [.item it false]) = joining d its q.txq := joining_congr fun x hx => by
          have hx' : (TxEntry.item it false).isItem x = false := beq_eq_false_iff_ne.2 fun hc => hit (hc ▸ hx)
          rw [List.any_append, List.any_cons, hx']
          simp
        have hfirst : joining d (it :: its) q.txq = .item it false :: joining d its q.txq := by
          rw [joining, List.filter_cons, if_pos (by rw [hd, Bool.eq_false_iff.2 hin]; rfl)]
          rfl
        rw [hjoin, hfirst, List.filter_append, List.filter_cons, if_pos hstay, List.filter_nil, List.append_assoc]
        rfl
    | false =>
      have hjoin : joining d its (q.txq.filter fun e => e != .item it false) = joining d its q.txq := joining_congr fun x hx => by
        rw [List.any_filter]
        refine congrArg (fun f => q.txq.any f) (funext fun e => ?_)
        cases e with
        | tone _ => rfl
        | item it' forced =>
          by_cases hx' : it' = it
          · rw [hx']
            have : (TxEntry.item it forced).isItem x = false := beq_eq_false_iff_ne.2 fun hc => hit (hc ▸ hx)
            rw [this, Bool.and_false]
          · have : (TxEntry.item it' forced != .item it false) = true := by simp [hx']
            rw [this, Bool.true_and]
      have hfirst : joining d (it :: its) q.txq = joining d its q.txq := by
        rw [joining, List.filter_cons, if_neg (by rw [hd]; exact Bool.false_ne_true)]
        rfl
      have hstays : q.txq.filter (staysFor d (it :: its)) = (q.txq.filter fun e => e != .item it false).filter (staysFor d its) := by
        rw [List.filter_filter]
        exact List.filter_congr fun e _ => staysFor_cons_of_not_differs hd hit e
      rw [Position.queueItem, if_neg (by decide), hstays, hfirst]
      exact congrArg _ hjoin

/-- Of the eleven items, those that differ and those of a carrier return stay. -/
theorem staysFor_allItems (d : Item → Bool) (e : TxEntry) :
    staysFor d allItems e = match e with
      | .tone _ => true
      | .item it forced => forced || d it := by
  cases e with
  | tone _ => rfl
  | item it forced =>
    have hmem : it ∈ allItems := by
      cases it with
      | lamp k => revert k; decide
      | line j => revert j; decide
    simp [staysFor, hmem]

/-! ### The positions -/

/-- What is wanted does not rest on the transmit queues. -/
theorem SameButTxq.itemDiffers {s t : State} (h : SameButTxq s t) (p : Pos) (it : Item) : t.itemDiffers p it = s.itemDiffers p it := by
  obtain ⟨hframe, hpos⟩ := h
  obtain ⟨txqs, hpos⟩ : ∃ txqs : Pos → List TxEntry, ∀ p, t.pos p = { s.pos p with txq := txqs p } := ⟨_, hpos⟩
  generalize t.positions = P at hframe
  subst hframe
  cases it with
  | lamp k => simp only [State.itemDiffers, State.wantedLamp, State.loop, hpos]
  | line j =>
    simp only [State.itemDiffers, State.wantedLine, State.wantedLine1, State.wantedLine2, State.focus, State.holdsVoice,
      State.retrieved, State.tagLine, State.tenantOf, State.focusContent, State.queuedFigure, State.record?, State.slot,
      State.entry?, State.tenant, State.loop, hpos] <;> rfl

theorem SameButTxq.txqInStep {s t : State} (h : SameButTxq s t) {p : Pos} (hp : t.pos p = s.pos p) : t.txqInStep p = s.txqInStep p := by
  simp only [State.txqInStep, hp, h.itemDiffers]

theorem pos_refreshPos_self (s : State) (p : Pos) :
    (s.refreshPos p).pos p = if (s.pos p).state = .absent then s.pos p else { s.pos p with txq := s.txqInStep p } := by
  unfold State.refreshPos
  by_cases hp : (s.pos p).state = .absent
  · rw [if_neg (by rw [equipped_iff]; exact fun h => h hp), if_pos hp]
  · rw [if_pos ((equipped_iff _).2 hp), if_neg hp, pos_updPos_self, queueItems_frame, queueItems_txq _ _ (by decide)]
    refine congrArg (fun txq => { s.pos p with txq := txq }) (congrArg (· ++ _) (List.filter_congr fun e _ => ?_))
    exact (staysFor_allItems _ e).trans (by cases e <;> rfl)

theorem pos_refreshPos_ne (s : State) {p q : Pos} (h : q ≠ p) : (s.refreshPos p).pos q = s.pos q := by
  unfold State.refreshPos
  split
  · exact pos_updPos_ne _ _ _ _ (Ne.symm h)
  · rfl

theorem pos_foldl_refreshPos (ps : List Pos) (hn : ps.Nodup) (s : State) (q : Pos) :
    (ps.foldl State.refreshPos s).pos q =
      if q ∈ ps then if (s.pos q).state = .absent then s.pos q else { s.pos q with txq := s.txqInStep q } else s.pos q := by
  induction ps generalizing s with
  | nil => rfl
  | cons p ps ih =>
    obtain ⟨hp, hn⟩ := List.nodup_cons.1 hn
    rw [List.foldl_cons, ih hn]
    by_cases hq : q = p
    · subst hq
      rw [if_neg hp, if_pos List.mem_cons_self, pos_refreshPos_self]
    · have hsame := pos_refreshPos_ne s hq
      rw [hsame, (refreshPos_same s p).txqInStep hsame]
      exact if_congr (by rw [List.mem_cons, or_iff_right hq]) rfl rfl

/-- The end of an event brings every equipped position's transmit queue in step (R156). -/
theorem pos_refresh (s : State) (p : Pos) :
    s.refresh.pos p = if (s.pos p).state = .absent then s.pos p else { s.pos p with txq := s.txqInStep p } :=
  (pos_foldl_refreshPos allPos (by decide) s p).trans (if_pos (mem_allPos p))

/-- The tones stay in the transmit queue. -/
theorem txqInStep_tones (s : State) (p : Pos) : (s.txqInStep p).filter TxEntry.isTone = (s.pos p).txq.filter TxEntry.isTone := by
  have hnone : ∀ its : List Item, ((its.map fun it => TxEntry.item it false).filter TxEntry.isTone) = [] := fun its =>
    List.filter_eq_nil_iff.2 fun e he => by
      obtain ⟨it, -, rfl⟩ := List.mem_map.1 he
      exact Bool.false_ne_true
  rw [State.txqInStep, List.filter_append, hnone, List.append_nil, List.filter_filter]
  refine List.filter_congr fun e _ => ?_
  cases e with
  | tone _ => rfl
  | item it forced => rfl

theorem refresh_tones (s : State) (p : Pos) : (s.refresh.pos p).txq.filter TxEntry.isTone = (s.pos p).txq.filter TxEntry.isTone := by
  rw [pos_refresh]
  split
  · rfl
  · exact txqInStep_tones s p

end Sys2Proof.Machine
end

section
/-! PROOFS. The offers at the end of an event (R47 to R52), and what offers, sending and pictures leave alone. -/

namespace Sys2Proof.Machine

/-! ### The next offer -/

theorem findSome?_finRange_first {α : Type} {n : Nat} {f : Fin n → Option α} {b : α} (h : (List.finRange n).findSome? f = some b) :
    ∃ k, f k = some b ∧ ∀ j < k, f j = none := by
  obtain ⟨front, k, back, hsplit, hk, hfront⟩ := List.findSome?_eq_some_iff.1 h
  refine ⟨k, hk, fun j hj => hfront j ?_⟩
  have hsorted := List.pairwise_lt_finRange n
  rw [hsplit, List.pairwise_append] at hsorted
  obtain ⟨-, hback, -⟩ := hsorted
  have hmem := List.mem_finRange j
  rw [hsplit] at hmem
  obtain hmem | hmem := List.mem_append.1 hmem
  · exact hmem
  · obtain rfl | hmem := List.mem_cons.1 hmem
    · exact absurd hj (lt_irrefl _)
    · exact absurd hj (not_lt_of_gt ((List.pairwise_cons.1 hback).1 j hmem))

theorem rotation_eq (s : State) : s.rotation = (List.finRange 4).map fun k => s.pointer + k := by
  simp only [State.rotation, List.finRange_succ, List.finRange_zero, List.map_cons, List.map_nil, Fin.add_zero]
  rfl

/-- The next offer is that of the first position in rotation that has one (R50). -/
theorem nextOffer_some {s : State} {p : Pos} {l : LoopNo} {i : Slot} (h : s.nextOffer = some (p, l, i)) :
    s.offerAt p = some (p, l, i) ∧ ∀ q : Pos, (q - s.pointer).val < (p - s.pointer).val → s.offerAt q = none := by
  rw [State.nextOffer, rotation_eq, List.findSome?_map] at h
  obtain ⟨k, hk, hfirst⟩ := findSome?_finRange_first h
  have hp : s.pointer + k = p := ((offerAt_some hk).1).symm
  have hdist : p - s.pointer = k := by rw [← hp, add_sub_cancel_left]
  refine ⟨by rw [← hp]; rw [← hp] at hk; exact hk, fun q hq => ?_⟩
  rw [hdist] at hq
  have := hfirst (q - s.pointer) hq
  rwa [Function.comp_apply, add_sub_cancel] at this

theorem nextOffer_none {s : State} (h : s.nextOffer = none) (p : Pos) : s.offerAt p = none := by
  rw [State.nextOffer, rotation_eq, List.findSome?_map] at h
  have := List.findSome?_eq_none_iff.1 h (p - s.pointer) (List.mem_finRange _)
  rwa [Function.comp_apply, add_sub_cancel] at this

theorem lowestIdle_least {s : State} {p : Pos} {l : LoopNo} (h : s.lowestIdle p = some l) : ∀ m < l, s.loop p m ≠ .idle := by
  obtain ⟨-, front, back, hsplit, hfront⟩ := List.find?_eq_some_iff_append.1 h
  intro m hm
  have hsorted := List.pairwise_lt_finRange 6
  have hsplit' : List.finRange 6 = front ++ l :: back := hsplit
  have hmem := List.mem_finRange m
  rw [hsplit'] at hmem hsorted
  obtain ⟨-, hback, -⟩ := List.pairwise_append.1 hsorted
  obtain hmem | hmem := List.mem_append.1 hmem
  · simpa using hfront m hmem
  · obtain rfl | hmem := List.mem_cons.1 hmem
    · exact absurd hm (lt_irrefl _)
    · exact absurd hm (not_lt_of_gt ((List.pairwise_cons.1 hback).1 m hmem))

theorem quiet_names {x : LoopState} (h : x.onVoicePath = false ∧ x.isAlerting = false) (j : Slot) :
    x ≠ .alerting j ∧ x ≠ .connecting j ∧ x ≠ .talk j ∧ x ≠ .extend j := by
  obtain ⟨hvoice, halert⟩ := h
  refine ⟨?_, ?_, ?_, ?_⟩ <;> rintro rfl
  · cases halert
  all_goals cases hvoice

theorem quiet_of_names {x : LoopState} (h : ∀ j, x ≠ .alerting j ∧ x ≠ .connecting j ∧ x ≠ .talk j ∧ x ≠ .extend j) :
    x.onVoicePath = false ∧ x.isAlerting = false := by
  cases x with
  | alerting j => exact absurd rfl (h j).1
  | connecting j => exact absurd rfl (h j).2.1
  | talk j => exact absurd rfl (h j).2.2.1
  | extend j => exact absurd rfl (h j).2.2.2
  | idle => exact ⟨rfl, rfl⟩
  | held _ => exact ⟨rfl, rfl⟩
  | recalling _ => exact ⟨rfl, rfl⟩
  | locked _ => exact ⟨rfl, rfl⟩

/-- A call that is chosen has the highest rank of those that may be offered, and stands first of that rank (R42). -/
theorem best_highest {s : State} {p : Pos} {i : Slot} (h : s.bestOf (s.queue.filter fun j => s.offerable p j) = some i) :
    ∀ j ∈ s.queue, s.offerable p j = true → s.rankOf j ≤ s.rankOf i := by
  obtain ⟨a, b, hsplit, ha, hb⟩ := bestOf_split h
  intro j hj hoff
  have hmem := List.mem_filter.2 ⟨hj, hoff⟩
  rw [hsplit] at hmem
  obtain hmem | hmem := List.mem_append.1 hmem
  · exact Nat.le_of_lt (ha j hmem)
  · obtain rfl | hmem := List.mem_cons.1 hmem
    · exact Nat.le_refl _
    · exact hb j hmem

theorem best_earliest {s : State} {p : Pos} {i : Slot} (h : s.bestOf (s.queue.filter fun j => s.offerable p j) = some i) :
    ∃ a b, s.queue = a ++ i :: b ∧ ∀ j ∈ a, s.offerable p j = true → s.rankOf j < s.rankOf i := by
  obtain ⟨a, b, hsplit, ha, -⟩ := bestOf_split h
  obtain ⟨front, back, hqueue, hfront, hback⟩ := List.filter_eq_append_iff.1 hsplit
  obtain ⟨skipped, rest, hrest, hskipped, -, -⟩ := List.filter_eq_cons_iff.1 hback
  refine ⟨front ++ skipped, rest, by rw [hqueue, hrest, List.append_assoc], fun j hj hoff => ?_⟩
  obtain hj | hj := List.mem_append.1 hj
  · exact ha j (hfront ▸ List.mem_filter.2 ⟨hj, hoff⟩)
  · exact absurd hoff (hskipped j hj)

theorem ownRecall_live {s : State} {i : Slot} {r : Record} (h : s.slot i = .live r) (p : Pos) :
    s.ownRecall p i = true ↔ r.kind ≠ .new ∧ r.owner = some p := by
  simp only [State.ownRecall, (record?_eq_some s i).2 h]
  cases r.kind with
  | new => exact ⟨nofun, fun h => absurd rfl h.1⟩
  | _ why => exact beq_iff_eq.trans ⟨fun h => ⟨nofun, h⟩, fun h => h.2⟩

/-- Where a call may be offered: at OPEN, and at WITHDRAWN the position's own recalls (R49). -/
theorem offerable_iff {s : State} {i : Slot} {r : Record} (h : s.slot i = .live r) (p : Pos) :
    s.offerable p i = true ↔ s.eligible p i = true ∧
      ((s.pos p).state = .opened ∨ ((s.pos p).state = .withdrawn ∧ r.kind ≠ .new ∧ r.owner = some p)) := by
  unfold State.offerable
  cases hs : (s.pos p).state with
  | opened => exact ⟨fun h => ⟨h, .inl rfl⟩, fun h => h.1⟩
  | withdrawn =>
    refine (Bool.and_eq_true_iff).trans (and_congr_right fun _ => (ownRecall_live h p).trans ⟨fun h => .inr ⟨rfl, h⟩, ?_⟩)
    rintro (h | h)
    · cases h
    · exact h.2
  | absent => exact ⟨nofun, fun h => by obtain ⟨-, h | ⟨h, -⟩⟩ := h <;> cases h⟩
  | closed => exact ⟨nofun, fun h => by obtain ⟨-, h | ⟨h, -⟩⟩ := h <;> cases h⟩
  | faulted => exact ⟨nofun, fun h => by obtain ⟨-, h | ⟨h, -⟩⟩ := h <;> cases h⟩

/-- The owner rule (R47): a recall whose owner is staffed is for its owner alone. -/
theorem ownerAllows_iff (s : State) (p : Pos) (r : Record) :
    s.ownerAllows p r = true ↔
      ∀ x, r.kind ≠ .new → r.owner = some x → ((s.pos x).state = .opened ∨ (s.pos x).state = .withdrawn) → x = p := by
  unfold State.ownerAllows
  cases hk : r.kind with
  | new => exact ⟨fun _ _ h => absurd rfl h, fun _ => rfl⟩
  | _ why =>
    cases ho : r.owner with
    | none => exact ⟨fun _ _ _ h => (nomatch h), fun _ => rfl⟩
    | some x =>
      refine (Bool.or_eq_true_iff).trans ⟨?_, fun h => ?_⟩
      · rintro (h | h) y - hy hstaffed
        · cases hy
          rw [(staffed_iff _).2 hstaffed] at h
          cases h
        · cases hy
          exact of_decide_eq_true h
      · by_cases hx : (s.pos x).state = .opened ∨ (s.pos x).state = .withdrawn
        · exact .inr (decide_eq_true (h x nofun rfl hx))
        · exact .inl (by rw [Bool.eq_false_iff.2 fun hc => hx ((staffed_iff _).1 hc)]; rfl)

theorem eligible_of_live {s : State} {p : Pos} {i : Slot} {r : Record} (hr : s.slot i = .live r) (hloc : r.loc = .queued)
    (hmark : r.mark = none) (hclaim : r.claim = none) (hf : s.inFlight i = false) (hmask : covers (s.pos p).tenantMask r.tenant = true)
    (hallow : s.ownerAllows p r = true) : s.eligible p i = true := by
  simp only [State.eligible, (record?_eq_some s i).2 hr, hloc, hmark, hclaim, hf, hmask, hallow]
  rfl

/-- With no next offer, a position whose loops would allow one has no call it may be offered. -/
theorem offerable_of_no_offer {s : State} {p : Pos} (hnone : s.nextOffer = none) (hidle : ∃ l, s.loop p l = .idle)
    (hquiet : s.loopsQuiet p = true) {i : Slot} (hi : i ∈ s.queue) : s.offerable p i = false := by
  have hat := nextOffer_none hnone p
  rw [State.offerAt, if_pos hquiet] at hat
  cases hlow : s.lowestIdle p with
  | none =>
    obtain ⟨l, hl⟩ := hidle
    exact absurd hl (by simpa using List.find?_eq_none.1 hlow l (mem_allLoops l))
  | some l =>
    cases hbest : s.bestOf (s.queue.filter fun j => s.offerable p j) with
    | none =>
      have hempty := bestOf_eq_none_iff.1 hbest
      exact Bool.eq_false_iff.2 (List.filter_eq_nil_iff.1 hempty i hi)
    | some j =>
      rw [hlow, hbest] at hat
      cases hat

/-! ### One offer -/

/-- The record of an offered call (R52). -/
def State.offeredRecord (s : State) (r : Record) (p : Pos) (l : LoopNo) : Record :=
  { r with mark := some (p, l), held := none, timer := some ⟨.offer, s.tick + s.timing.offer, false⟩ }

theorem offer_live {s : State} {i : Slot} {r : Record} (h : s.slot i = .live r) (p : Pos) (l : LoopNo) :
    s.offer p l i = { ((s.setLoop p l (.alerting i)).raiseLoop p .offer l).setSlot i (.live (s.offeredRecord r p l)) with
      pointer := p + 1 } := by
  unfold State.offer State.armNow
  rw [updRec_slots_of_live h, updRec_slots_of_live (slot_setSlot_self _ _ _), setSlot_setSlot]
  rfl

theorem workAt_offer {s : State} {i : Slot} {r : Record} (h : s.slot i = .live r) (p : Pos) (l : LoopNo) :
    s.workAt (s.offer p l i) p l (.alerting i) (s.viewRaised p .offer l (s.view p)) (s.pos p).note (raisedTones (s.pos p) .offer) := by
  rw [offer_live h]
  exact (((State.workAt.refl s p l).setLoop (.alerting i)).raiseLoop_first rfl .offer).of_positions rfl

theorem offerable_of_best {s : State} {p : Pos} {i : Slot} (h : s.bestOf (s.queue.filter fun j => s.offerable p j) = some i) :
    i ∈ s.queue ∧ s.offerable p i = true := List.mem_filter.1 (bestOf_mem h)

/-- The next offer is of a QUEUED call that is neither offered nor claimed. -/
theorem nextOffer_call {s : State} {p : Pos} {l : LoopNo} {i : Slot} (h : s.nextOffer = some (p, l, i)) :
    ∃ r, s.slot i = .live r ∧ r.loc = .queued ∧ r.mark = none ∧ r.claim = none := by
  obtain ⟨-, -, -, hbest⟩ := offerAt_some (nextOffer_some h).1
  obtain ⟨r, hr, hloc, hmark, hclaim, -⟩ := eligible_record (offerable_eligible (offerable_of_best hbest).2)
  exact ⟨r, (record?_eq_some s i).1 hr, hloc, hmark, hclaim⟩

/-! ### Offers until none is possible -/

theorem offerOnce_of_none (s : State) (h : ¬ s.nextOffer ≠ none) : s.offerOnce = s := by
  rw [State.offerOnce, not_not.1 h]

/-- The positions that may be offered a call as far as their loops go (R49). -/
def State.quietPositions (s : State) : Finset Pos := Finset.univ.filter fun p => s.loopsQuiet p = true

/-- An offer leaves one position less that may be offered a call. -/
theorem offerOnce_quietPositions (s : State) (h : s.nextOffer ≠ none) : s.offerOnce.quietPositions.card < s.quietPositions.card := by
  obtain ⟨⟨p, l, i⟩, hnext⟩ := Option.ne_none_iff_exists'.1 h
  obtain ⟨r, hr, -⟩ := nextOffer_call hnext
  obtain ⟨-, hquiet, -⟩ := offerAt_some (nextOffer_some hnext).1
  obtain ⟨hloop, -, hothers, -⟩ := workAt_offer hr p l
  have honce : s.offerOnce = s.offer p l i := by rw [State.offerOnce, hnext]
  have hnot : (s.offer p l i).loopsQuiet p = false := loopsQuiet_alerting hloop
  rw [honce]
  refine Finset.card_lt_card ((Finset.ssubset_iff_of_subset fun q hq => ?_).2 ⟨p, ?_, ?_⟩)
  · have hq := (Finset.mem_filter.1 hq).2
    have hne : q ≠ p := fun hc => by rw [hc, hnot] at hq; cases hq
    refine Finset.mem_filter.2 ⟨Finset.mem_univ q, ?_⟩
    simp only [State.loopsQuiet, State.loop, hothers q hne] at hq ⊢
    exact hq
  · exact Finset.mem_filter.2 ⟨Finset.mem_univ p, hquiet⟩
  · exact fun hc => by
      have := (Finset.mem_filter.1 hc).2
      rw [hnot] at this
      cases this

theorem quietPositions_le (s : State) : s.quietPositions.card ≤ allPos.length := Finset.card_le_univ s.quietPositions

theorem makeOffers_of_none {s : State} (h : s.nextOffer = none) : s.makeOffers = s :=
  foldl_idle_step offerOnce_of_none _ (not_not.2 h)

theorem makeOffers_exhausts (s : State) : s.makeOffers.nextOffer = none :=
  not_not.1 (foldl_exhausts (work := fun t : State => t.quietPositions.card) offerOnce_of_none offerOnce_quietPositions allPos s (quietPositions_le s))

theorem makeOffers_offerOnce (s : State) : s.offerOnce.makeOffers = s.makeOffers :=
  foldl_after_step (work := fun t : State => t.quietPositions.card) offerOnce_of_none offerOnce_quietPositions allPos s (quietPositions_le s)

/-! ### What offers, sending and pictures leave alone -/

/-- What an offer may do to a record. -/
def State.sameOrOffered (s t : State) (i : Slot) : Prop :=
  t.slot i = s.slot i ∨ ∃ r p l, s.slot i = .live r ∧ r.loc = .queued ∧ r.mark = none ∧ r.claim = none ∧
    t.slot i = .live (s.offeredRecord r p l)

/-- What an offer may do to a loop. -/
def State.sameOrAlerting (s t : State) (p : Pos) (l : LoopNo) : Prop :=
  t.loop p l = s.loop p l ∨ (s.loop p l = .idle ∧ ∃ i, t.loop p l = .alerting i)

/-- What offers, sending and pictures leave alone (R51, R52, R127, R156). -/
structure OnlyOffers (s t : State) : Prop where
  session : s.sameSession t
  places : t.night = s.night ∧ t.nightDelay = s.nightDelay ∧ t.queue = s.queue ∧ t.orbits = s.orbits ∧ t.camp = s.camp
  slot : ∀ i, s.sameOrOffered t i
  position : ∀ p, (s.pos p).sameSettings (t.pos p) ∧ (t.pos p).note = (s.pos p).note
  loop : ∀ p l, s.sameOrAlerting t p l
  orders : t.orders.map Entry.content = s.orders.map Entry.content
  sent : s.window <+: t.window ∧ s.xout <+: t.xout
  shown : ∀ p, (t.pos p).loops = (s.pos p).loops →
    t.view p = s.view p ∧ (t.pos p).txq.filter TxEntry.isTone = (s.pos p).txq.filter TxEntry.isTone

theorem sameSession_refl (s : State) : s.sameSession s := ⟨rfl, rfl, rfl, rfl, rfl, rfl, rfl, rfl, rfl, rfl⟩

theorem sameSession_trans {s t u : State} (h : s.sameSession t) (h' : t.sameSession u) : s.sameSession u := by
  obtain ⟨h1, h2, h3, h4, h5, h6, h7, h8, h9, h10⟩ := h
  obtain ⟨k1, k2, k3, k4, k5, k6, k7, k8, k9, k10⟩ := h'
  exact ⟨k1.trans h1, k2.trans h2, k3.trans h3, k4.trans h4, k5.trans h5, k6.trans h6, k7.trans h7, k8.trans h8, k9.trans h9,
    k10.trans h10⟩

theorem loops_ext {q q' : Position} (h : ∀ l : LoopNo, q'.loops[l] = q.loops[l]) : q'.loops = q.loops :=
  Vector.ext fun k hk => h ⟨k, hk⟩

theorem OnlyOffers.refl (s : State) : OnlyOffers s s :=
  ⟨sameSession_refl s, ⟨rfl, rfl, rfl, rfl, rfl⟩, fun _ => .inl rfl, fun _ => ⟨.refl _, rfl⟩, fun _ _ => .inl rfl, rfl,
    ⟨List.prefix_rfl, List.prefix_rfl⟩, fun _ _ => ⟨rfl, rfl⟩⟩

theorem OnlyOffers.trans {s t u : State} (h : OnlyOffers s t) (h' : OnlyOffers t u) : OnlyOffers s u where
  session := sameSession_trans h.session h'.session
  places := by
    obtain ⟨h1, h2, h3, h4, h5⟩ := h.places
    obtain ⟨k1, k2, k3, k4, k5⟩ := h'.places
    exact ⟨k1.trans h1, k2.trans h2, k3.trans h3, k4.trans h4, k5.trans h5⟩
  slot i := by
    obtain ⟨-, htick, -, -, -, htiming, -⟩ := h.session
    obtain hs | ⟨r, p, l, hr, hloc, hmark, hclaim, ht⟩ := h.slot i
    · obtain hu | ⟨r, p, l, hr, hloc, hmark, hclaim, hu⟩ := h'.slot i
      · exact .inl (hu.trans hs)
      · refine .inr ⟨r, p, l, hs ▸ hr, hloc, hmark, hclaim, ?_⟩
        rw [hu, State.offeredRecord, htick, htiming]
        rfl
    · obtain hu | ⟨r', p', l', hr', -, hmark', -⟩ := h'.slot i
      · exact .inr ⟨r, p, l, hr, hloc, hmark, hclaim, hu.trans ht⟩
      · rw [ht] at hr'
        cases hr'
        cases hmark'
  position p := ⟨(h.position p).1.trans (h'.position p).1, (h'.position p).2.trans (h.position p).2⟩
  loop p l := by
    obtain hs | ⟨hidle, i, ht⟩ := h.loop p l
    · obtain hu | ⟨hidle, i, hu⟩ := h'.loop p l
      · exact .inl (hu.trans hs)
      · exact .inr ⟨hs ▸ hidle, i, hu⟩
    · obtain hu | ⟨hidle', -⟩ := h'.loop p l
      · exact .inr ⟨hidle, i, hu.trans ht⟩
      · rw [ht] at hidle'
        cases hidle'
  orders := h'.orders.trans h.orders
  sent := ⟨h.sent.1.trans h'.sent.1, h.sent.2.trans h'.sent.2⟩
  shown p hp := by
    have hmid (l : LoopNo) : t.loop p l = s.loop p l := by
      have hl : u.loop p l = s.loop p l := by simp only [State.loop, hp]
      obtain hs | ⟨hidle, i, ht⟩ := h.loop p l
      · exact hs
      · obtain hu | ⟨hidle', -⟩ := h'.loop p l
        · rw [← hl, hu]
        · rw [ht] at hidle'
          cases hidle'
    have hst : (t.pos p).loops = (s.pos p).loops := loops_ext hmid
    obtain ⟨hview, htones⟩ := h.shown p hst
    obtain ⟨hview', htones'⟩ := h'.shown p (hp.trans hst.symm)
    exact ⟨hview'.trans hview, htones'.trans htones⟩

theorem onlyOffers_offer {s : State} {p : Pos} {l : LoopNo} {i : Slot} (h : s.nextOffer = some (p, l, i)) :
    OnlyOffers s (s.offer p l i) := by
  obtain ⟨r, hr, hloc, hmark, hclaim⟩ := nextOffer_call h
  obtain ⟨-, -, hlowest, -⟩ := offerAt_some (nextOffer_some h).1
  obtain ⟨hloop, hloops, hothers, hset, hview, hnote, htxq⟩ := workAt_offer hr p l
  have hidle := lowestIdle_idle hlowest
  have hframe := offer_live hr p l
  refine ⟨?_, ?_, fun j => ?_, fun q => ?_, fun q m => ?_, ?_, ?_, fun q hq => ?_⟩
  · rw [hframe]; exact sameSession_refl s
  · rw [hframe]; exact ⟨rfl, rfl, rfl, rfl, rfl⟩
  · by_cases hj : j = i
    · subst hj
      refine .inr ⟨r, p, l, hr, hloc, hmark, hclaim, ?_⟩
      rw [hframe]
      exact slot_setSlot_self _ _ _
    · refine .inl ?_
      rw [hframe]
      exact slot_setSlot_ne _ _ _ _ (Ne.symm hj)
  · by_cases hq : q = p
    · subst hq
      exact ⟨hset, hnote⟩
    · rw [hothers q hq]
      exact ⟨.refl _, rfl⟩
  · by_cases hq : q = p
    · subst hq
      by_cases hm : m = l
      · subst hm
        exact .inr ⟨hidle, i, hloop⟩
      · exact .inl (hloops m hm)
    · refine .inl ?_
      simp only [State.loop, hothers q hq]
  · rw [hframe]; rfl
  · rw [hframe]; exact ⟨List.prefix_rfl, List.prefix_rfl⟩
  · have hne : q ≠ p := fun hc => by
      subst hc
      have : (s.offer q l i).loop q l = s.loop q l := by simp only [State.loop, hq]
      rw [hloop, hidle] at this
      cases this
    exact ⟨view_of_pos (hothers q hne), by rw [hothers q hne]⟩

theorem onlyOffers_offerOnce (s : State) : OnlyOffers s s.offerOnce := by
  obtain h | ⟨p, l, i, hnext, h⟩ := offerOnce_cases s <;> rw [h]
  · exact .refl s
  · exact onlyOffers_offer hnext

theorem onlyOffers_makeOffers (s : State) : OnlyOffers s s.makeOffers :=
  foldl_related OnlyOffers.refl OnlyOffers.trans _ (fun s _ => onlyOffers_offerOnce s) _ s

theorem SentMore.pointer {s t : State} (h : SentMore s t) : t.pointer = s.pointer := by rw [h.1]

theorem SameButTxq.pointer {s t : State} (h : SameButTxq s t) : t.pointer = s.pointer := by rw [h.1]

theorem SentMore.onlyOffers {s t : State} (h : SentMore s t) : OnlyOffers s t := by
  obtain ⟨hframe, horders, hwindow, hxout⟩ := h
  have hpos (p : Pos) : t.pos p = s.pos p := by rw [hframe]; rfl
  refine ⟨?_, ?_, fun i => .inl ?_, fun p => ?_, fun p l => .inl ?_, horders, ⟨hwindow, hxout⟩, fun p _ => ?_⟩
  · rw [hframe]; exact sameSession_refl s
  · rw [hframe]; exact ⟨rfl, rfl, rfl, rfl, rfl⟩
  · rw [hframe]; rfl
  · rw [hpos]; exact ⟨.refl _, rfl⟩
  · rw [hframe]; rfl
  · exact ⟨view_of_pos (hpos p), by rw [hpos]⟩

theorem onlyOffers_refresh (s : State) : OnlyOffers s s.refresh := by
  obtain ⟨hframe, hpos⟩ := refresh_same s
  refine ⟨?_, ?_, fun i => .inl (refresh_slot s i), fun p => ?_, fun p l => .inl (refresh_loop s p l), ?_, ?_, fun p _ => ?_⟩
  · rw [hframe]; exact sameSession_refl s
  · rw [hframe]; exact ⟨rfl, rfl, rfl, rfl, rfl⟩
  · rw [hpos p]; exact ⟨⟨rfl, rfl, rfl, rfl, rfl, rfl, rfl, rfl, rfl, rfl⟩, rfl⟩
  · rw [hframe]
  · rw [hframe]; exact ⟨List.prefix_rfl, List.prefix_rfl⟩
  · refine ⟨?_, refresh_tones s p⟩
    simp only [State.view]
    rw [hpos p]

theorem onlyOffers_finishOffers (s : State) : OnlyOffers s s.finishOffers :=
  (onlyOffers_makeOffers s).trans ((sendOrders_more _).onlyOffers.trans (onlyOffers_refresh _))

end Sys2Proof.Machine

namespace Sys2Proof
open Sys2Proof.Machine

/-- Settles O11. -/
theorem offersAndSendingLeaveTheRest : Obligations.OffersAndSendingLeaveTheRest := by
  intro s t ht
  have h : OnlyOffers s t := ht ▸ onlyOffers_finishOffers s
  obtain ⟨hnight, hdelay, hqueue, horbits, hcamp⟩ := h.places
  refine ⟨h.session, hnight, hdelay, hqueue, horbits, hcamp, h.slot, fun p => ⟨(h.position p).1, (h.position p).2, h.loop p⟩,
    h.orders, h.sent.1, h.sent.2, h.shown, fun hnone => ?_⟩
  rw [ht, State.finishOffers, makeOffers_of_none hnone]
  exact ⟨(refresh_same s.sendOrders).pointer.trans (sendOrders_more s).pointer, finishOrders_slots s⟩

/-- Settles O16. -/
theorem offerGoesToTheFirstPositionInRotation : Obligations.OfferGoesToTheFirstPositionInRotation := by
  refine ⟨fun s p l i hnext => ?offer, fun s hnone => by rw [State.finishOffers, makeOffers_of_none hnone],
    fun s p i r hnone hidle hquiet hi hr hloc hmark hclaim hf htenant howner => ?none⟩
  case offer =>
    obtain ⟨hat, hearlier⟩ := nextOffer_some hnext
    obtain ⟨-, hquiet, hlowest, hbest⟩ := offerAt_some hat
    obtain ⟨hi, hoff⟩ := offerable_of_best hbest
    obtain ⟨r, hr, hloc, hmark, hclaim, hf, hmask, hallow⟩ := eligible_record (offerable_eligible hoff)
    have hlive := (record?_eq_some s i).1 hr
    obtain ⟨hloop, hloops, hothers, hset, hview, hnote, htxq⟩ := workAt_offer hlive p l
    have hframe := offer_live hlive p l
    have honce : s.offerOnce = s.offer p l i := by rw [State.offerOnce, hnext]
    refine ⟨fun m => quiet_names ((loopsQuiet_iff s p).1 hquiet m), hearlier, ⟨lowestIdle_idle hlowest, lowestIdle_least hlowest⟩,
      hi, best_highest hbest, best_earliest hbest, hbest, r, hlive, hloc, hmark, hclaim, (inFlight_eq_false s i).1 hf, hmask,
      ((offerable_iff hlive p).1 hoff).2, (ownerAllows_iff s p r).1 hallow, by rw [hframe]; rfl, hloop, hloops, hothers, by rw [hframe]; rfl,
      hview, htxq, hset, hnote, ?_, by rw [hframe]; rfl⟩
    rw [← honce, State.finishOffers, State.finishOffers, makeOffers_offerOnce]
  case none =>
    have hnot := offerable_of_no_offer hnone hidle ((loopsQuiet_iff s p).2 fun m => quiet_of_names (hquiet m)) hi
    have heligible : s.eligible p i = true := eligible_of_live hr hloc hmark hclaim ((inFlight_eq_false s i).2 hf) htenant
      ((ownerAllows_iff s p r).2 fun x hk ho hx => howner hk x ho hx)
    have hstate : ¬ ((s.pos p).state = .opened ∨ ((s.pos p).state = .withdrawn ∧ r.kind ≠ .new ∧ r.owner = some p)) := fun h =>
      absurd ((offerable_iff hr p).2 ⟨heligible, h⟩) (by rw [hnot]; exact Bool.false_ne_true)
    exact ⟨fun h => hstate (.inl h), fun hw => or_iff_not_imp_left.2 fun hk ho => hstate (.inr ⟨hw, hk, ho⟩)⟩

end Sys2Proof
end

section
/-! PROOFS. The advance of the counter and the carrier rows it takes (R25, R136, R155). -/

namespace Sys2Proof.Machine

/-- An entry after the test of the head of the window at an advance (R136). -/
def State.testedEntry (s : State) (e : Entry) : Entry :=
  match e.state with
  | .sent d _ => if s.window.head? = some e.slot ∧ (s.tick + 1 - d).toNat < 32768 then { e with state := .sent d true } else e
  | _ => e

theorem testedEntry_of_not_head {s : State} {e : Entry} (h : s.window.head? ≠ some e.slot) : s.testedEntry e = e := by
  unfold State.testedEntry
  split
  · exact if_neg fun hc => h hc.1
  · rfl

theorem testedEntry_sent {s : State} {e : Entry} {d : Tick} {f : Bool} (h : s.window.head? = some e.slot) (he : e.state = .sent d f) :
    s.testedEntry e = if expired (s.tick + 1) d then { e with state := .sent d true } else e := by
  rw [State.testedEntry, he]
  exact if_congr ((and_iff_right h).trans (expired_iff _ _).symm) rfl rfl

theorem testedEntry_not_sent {s : State} {e : Entry} (he : e.isSent = false) : s.testedEntry e = e := by
  unfold State.testedEntry
  split
  · next hs => rw [Entry.isSent, hs] at he; cases he
  · rfl

/-- The state at an advance before the test of the head. -/
def State.ticked (s : State) : State :=
  { s with tick := s.tick + 1, xrx := s.xrx.advance, positions := s.positions.map fun q => { q with rx := q.rx.advance } }

/-- The test of the head marks that entry alone (R136). -/
theorem advance_orders {s : State} (hs : s.ordersOk) : s.advance = { s.ticked with orders := s.orders.map s.testedEntry } := by
  obtain ⟨hn, -⟩ := hs
  have hid (h : ∀ e ∈ s.orders, s.testedEntry e = e) : s.ticked = { s.ticked with orders := s.orders.map s.testedEntry } := by
    rw [List.map_congr_left h, List.map_id']
    rfl
  have hadvance : s.advance = s.ticked.testHead := rfl
  rw [hadvance]
  unfold State.testHead
  split
  case h_2 hnone =>
    refine hid fun e he => testedEntry_of_not_head fun hhead => ?_
    have : s.ticked.headEntry = some e := by
      rw [State.headEntry]
      exact (congrArg (·.bind s.ticked.entry?) hhead).trans (entry?_eq (s := s.ticked) hn he)
    rw [hnone] at this
    cases this
  case h_1 e hhead =>
    obtain ⟨i, hi, hentry⟩ := Option.bind_eq_some_iff.1 hhead
    obtain ⟨rfl, hmem⟩ := entry?_slot hentry
    have hother (x : Entry) (hx : x.slot ≠ e.slot) : s.testedEntry x = x := testedEntry_of_not_head fun hc =>
      hx (Option.some.inj (hc.symm.trans hi))
    have hsame (h : s.testedEntry e = e) : ∀ x ∈ s.orders, s.testedEntry x = x := fun x hx => by
      by_cases hslot : x.slot = e.slot
      · rw [entry_unique hn hx hmem hslot, h]
      · exact hother x hslot
    split
    case h_2 hnot =>
      refine hid (hsame (testedEntry_not_sent ?_))
      rw [Entry.isSent]
      split
      · next d f hsent => exact absurd hsent (hnot d f)
      · rfl
    case h_1 d f hsent =>
      have htest := testedEntry_sent (s := s) hi hsent
      split
      case isFalse hexp => exact hid (hsame (htest.trans (if_neg hexp)))
      case isTrue hexp =>
        have htest := htest.trans (if_pos hexp)
        refine congrArg (fun es => { s.ticked with orders := es }) (List.map_congr_left fun x hx => ?_)
        by_cases hslot : x.slot = e.slot
        · rw [if_pos hslot, entry_unique hn hx hmem hslot, htest]
        · rw [if_neg hslot, hother x hslot]

theorem toNat_succ_tick (t : Tick) : (t + 1).toNat = if t.toNat = 65535 then 0 else t.toNat + 1 := by
  rw [toNat_add_tick]
  have := t.isLt
  have hone : (1 : Tick).toNat = 1 := rfl
  split <;> omega

/-! ### The carriers -/

theorem exec_carrierCommand (s : State) (pcar : BitVec 4) (p : Pos) :
    exec (carrierCommand pcar p) s = .next (s.sampleCarrier p (pcarLevel pcar p)) := by
  unfold carrierCommand pcarLevel
  cases pcar.getLsbD p.val <;> rfl

theorem sampleCarrier_agrees {s : State} {p : Pos} {level : Bool} (h : (s.pos p).state ≠ .absent → (s.pos p).carrier = level) :
    s.sampleCarrier p level = s := by
  rw [State.sampleCarrier, if_neg]
  rw [Bool.and_eq_true, equipped_iff, bne_iff_ne]
  exact fun hc => hc.2 (h hc.1)

theorem sampleCarriers_agree {s : State} {pcar : BitVec 4} (h : s.carriersAgree pcar) (ps : List Pos) :
    ps.foldl (fun t p => t.sampleCarrier p (pcarLevel pcar p)) s = s := by
  induction ps with
  | nil => rfl
  | cons p ps ih => rw [List.foldl_cons, sampleCarrier_agrees (level := pcarLevel pcar p) (h p), ih]

theorem pos_ticked (s : State) (p : Pos) : s.ticked.pos p = { s.pos p with rx := (s.pos p).rx.advance } := by
  simp [State.ticked, State.pos]

end Sys2Proof.Machine

namespace Sys2Proof
open Sys2Proof.Machine

/-- Settles O18. -/
theorem tickAdvancesTheCounter : Obligations.TickAdvancesTheCounter := by
  intro s pcar hs
  have hadvance := advance_orders hs
  refine ⟨s.advance, _, _, _, _, ?_, ?_, exec_carrierCommand _ pcar 0, exec_carrierCommand _ pcar 1, exec_carrierCommand _ pcar 2,
    exec_carrierCommand _ pcar 3, rfl, fun h => ?_⟩
  · rw [hadvance]
    exact toNat_succ_tick s.tick
  · rw [hadvance]
    rfl
  · refine sampleCarriers_agree (s := s.advance) (fun p => ?_) [0, 1, 2, 3]
    have hpos : s.advance.pos p = s.ticked.pos p := by rw [hadvance]; rfl
    rw [hpos, pos_ticked]
    exact h p

end Sys2Proof
end

section
/-! PROOFS. The failure of the link (R136, R137): the keys evaluated over an emptied Call Table, and EXCHANGE_DOWN. -/

namespace Sys2Proof.Machine

/-! ### Keys over an emptied Call Table -/

/-- No call, no order and no loop in use (R137). -/
structure Emptied (s : State) : Prop where
  loop : ∀ p l, s.loop p l = .idle
  orbit : ∀ o, s.orbit o = .empty
  queue : s.queue = []
  orders : s.orders = []

/-- What no key of a position with IDLE loops touches but its key buffer. -/
def Position.sameWires (q q' : Position) : Prop :=
  q'.loops = q.loops ∧ q'.tenantMask = q.tenantMask ∧ q'.latchMask = q.latchMask ∧ q'.toneMask = q.toneMask ∧
  q'.carrier = q.carrier ∧ q'.sent = q.sent ∧ q'.pout = q.pout ∧ q'.rx = q.rx ∧ q'.line = q.line

theorem Position.sameWires.refl (q : Position) : q.sameWires q := ⟨rfl, rfl, rfl, rfl, rfl, rfl, rfl, rfl, rfl⟩

theorem Position.sameWires.trans {a b c : Position} (h : a.sameWires b) (h' : b.sameWires c) : a.sameWires c := by
  obtain ⟨h1, h2, h3, h4, h5, h6, h7, h8, h9⟩ := h
  obtain ⟨k1, k2, k3, k4, k5, k6, k7, k8, k9⟩ := h'
  exact ⟨k1.trans h1, k2.trans h2, k3.trans h3, k4.trans h4, k5.trans h5, k6.trans h6, k7.trans h7, k8.trans h8, k9.trans h9⟩

/-- Two states agree but for their positions and the night state. -/
def SamePart (s t : State) : Prop := t = { s with positions := t.positions, night := t.night, nightDelay := t.nightDelay }

theorem SamePart.refl (s : State) : SamePart s s := rfl

theorem SamePart.trans {s t u : State} (h : SamePart s t) (h' : SamePart t u) : SamePart s u := by
  unfold SamePart at *
  rw [h', h]

/-- The keys that change the night state (R62). -/
def leavesNight (k : KeyMsg) : Prop := k.kind ≠ .opening ∧ k.kind ≠ .closing

/-- The effect of a key over an emptied Call Table. -/
structure KeyOverEmpty (s t : State) (p : Pos) (k : KeyMsg) : Prop where
  part : SamePart s t
  others : s.sameOthers t p
  wires : (s.pos p).sameWires (t.pos p)
  keys : (t.pos p).keys = (s.pos p).keys
  night : leavesNight k → t.night = s.night ∧ t.nightDelay = s.nightDelay
  tone : KeyKind.isLoopKey k.kind = true → t = s.errorTone p

/-- A key whose effect is one change at its position. -/
theorem KeyOverEmpty.of_updPos {s : State} {p : Pos} {k : KeyMsg} {f : Position → Position} (hwires : (s.pos p).sameWires (f (s.pos p)))
    (hkeys : (f (s.pos p)).keys = (s.pos p).keys) (hk : KeyKind.isLoopKey k.kind = false) : KeyOverEmpty s (s.updPos p f) p k where
  part := rfl
  others q hq := pos_updPos_ne _ _ _ _ (Ne.symm hq)
  wires := by rw [pos_updPos_self]; exact hwires
  keys := by rw [pos_updPos_self, hkeys]
  night _ := ⟨rfl, rfl⟩
  tone h := by rw [hk] at h; cases h

theorem keyOverEmpty_errorTone (s : State) (p : Pos) (k : KeyMsg) : KeyOverEmpty s (s.errorTone p) p k := by
  have hsound : (s.pos p).sound .error = { s.pos p with txq := ((s.pos p).sound .error).txq } := by
    rw [sound_eq]
  refine ⟨rfl, fun q hq => pos_updPos_ne _ _ _ _ (Ne.symm hq), ?_, ?_, fun _ => ⟨rfl, rfl⟩, fun _ => rfl⟩
  · rw [State.errorTone, pos_updPos_self, hsound]
    exact ⟨rfl, rfl, rfl, rfl, rfl, rfl, rfl, rfl, rfl⟩
  · rw [State.errorTone, pos_updPos_self, hsound]

/-- A key that changes its position and then perhaps the night state. -/
theorem KeyOverEmpty.withNight {s t u : State} {p : Pos} {k : KeyMsg} (h : KeyOverEmpty s t p k)
    (hu : u = { t with night := u.night, nightDelay := u.nightDelay }) (hk : ¬ leavesNight k)
    (hloop : KeyKind.isLoopKey k.kind = false) : KeyOverEmpty s u p k := by
  have hpos (q : Pos) : u.pos q = t.pos q := by rw [hu]; rfl
  refine ⟨h.part.trans ?_, fun q hq => (hpos q).trans (h.others q hq), by rw [hpos]; exact h.wires, by rw [hpos]; exact h.keys,
    fun hc => absurd hc hk, fun hc => by rw [hloop] at hc; cases hc⟩
  have hpositions : u.positions = t.positions := by rw [hu]
  unfold SamePart
  rw [hpositions]
  exact hu

/-- A loop key for an IDLE loop is not valid (R75, R77 to R82, R93, R100, R101). -/
theorem loopKey_idle {s : State} {p : Pos} {l : LoopNo} (h : s.loop p l = .idle) (k : KeyKind) (a : KeyArgs) :
    s.loopKey p k a l = s.errorTone p := by
  cases k with
  | loop =>
    rw [State.loopKey, State.keyLoop, h]
    exact ite_self _
  | park =>
    rw [State.loopKey, State.keyPark, h]
    cases s.parkOrbit a <;> rfl
  | extend => rw [State.loopKey, State.keyExtend, h]
  | release => rw [State.loopKey, State.keyRelease, h]
  | hold => rw [State.loopKey, State.keyHold, h]
  | cancel => rw [State.loopKey, State.keyCancel, h]
  | camp => rw [State.loopKey, State.keyCamp, h]
  | clear => rw [State.loopKey, State.keyClear, h]
  | _ => rfl

theorem evalKey_loopKey_emptied {s : State} (hs : Emptied s) {p : Pos} {k : KeyMsg} (hk : KeyKind.isLoopKey k.kind = true) :
    s.evalKey p k = s.errorTone p := by
  obtain ⟨kind, a⟩ := k
  by_cases ha : argumentOk kind a = true
  · cases hl : loopOf a.loop with
    | some l =>
      rw [evalKey_loopKey hk ha ((loopOf_eq_some_iff _ _).1 hl), loopKey_idle (hs.loop p l), ite_self]
    | none =>
      have hno : ¬ loopOk kind a = true := fun hc => by
        obtain ⟨l, h⟩ := (loopOk_loopKey hk).1 hc
        rw [(loopOf_eq_some_iff _ _).2 h] at hl
        cases hl
      exact (evalKey_bad fun hc => hno (Bool.and_eq_true_iff.1 hc).1).trans (errorTone_eq s p).symm
  · exact (evalKey_bad fun hc => ha (Bool.and_eq_true_iff.1 hc).2).trans (errorTone_eq s p).symm

/-- A position key over an emptied Call Table. -/
theorem keyOverEmpty_positionKey {s : State} (hs : Emptied s) (p : Pos) {k : KeyMsg} (hk : KeyKind.isLoopKey k.kind = false) :
    KeyOverEmpty s (s.positionKey p k.kind k.args) p k := by
  have htone := keyOverEmpty_errorTone s p k
  have hnight (h : k.kind = .opening ∨ k.kind = .closing) : ¬ leavesNight k := fun hc => h.elim hc.1 hc.2
  cases hkind : k.kind with
  | opening =>
    rw [State.positionKey, State.keyOpen]
    split
    · exact (KeyOverEmpty.of_updPos (f := fun q => { q with state := .opened }) (.refl _) rfl hk).withNight rfl
        (hnight (.inl hkind)) hk
    · exact htone
  | closing =>
    rw [State.positionKey, State.keyClose]
    split
    · refine (KeyOverEmpty.of_updPos (f := fun q => { q.clearAlerts with state := .closed, note := none }) (.refl _) rfl hk).withNight
        ?_ (hnight (.inr hkind)) hk
      unfold State.nowUnstaffed
      split <;> rfl
    · exact htone
  | withdraw =>
    rw [State.positionKey, State.keyWithdraw]
    split
    · exact .of_updPos (.refl _) rfl hk
    · exact htone
  | resume =>
    rw [State.positionKey, State.keyResume]
    split
    · exact .of_updPos (.refl _) rfl hk
    · exact htone
  | review =>
    rw [State.positionKey, State.keyReview]
    split
    · split
      · exact .of_updPos (.refl _) rfl hk
      · exact htone
    · exact htone
  | answerNext =>
    rw [State.positionKey, State.keyAnswerNext, hs.queue]
    split
    · cases s.lowestIdle p <;> exact htone
    · exact htone
  | pickup =>
    rw [State.positionKey, State.keyPickup]
    split
    · have hnone : ((orbitOf k.args).bind fun o => (s.orbit o).slot?) = none := by
        cases orbitOf k.args with
        | none => rfl
        | some o => rw [Option.bind_some, hs.orbit]; rfl
      rw [hnone]
      cases s.lowestIdle p <;> exact htone
    · exact htone
  | _ => exact absurd (hkind ▸ hk) (by decide)

theorem keyOverEmpty_evalKey {s : State} (hs : Emptied s) (p : Pos) (k : KeyMsg) : KeyOverEmpty s (s.evalKey p k) p k := by
  cases hk : KeyKind.isLoopKey k.kind with
  | true =>
    rw [evalKey_loopKey_emptied hs hk]
    exact keyOverEmpty_errorTone s p k
  | false =>
    by_cases hok : (loopOk k.kind k.args && argumentOk k.kind k.args) = true
    · obtain ⟨hl, ha⟩ := Bool.and_eq_true_iff.1 hok
      rw [evalKey_positionKey hk ha ((loopOk_position hk).1 hl)]
      exact keyOverEmpty_positionKey hs p hk
    · rw [evalKey_bad hok, ← errorTone_eq]
      exact keyOverEmpty_errorTone s p k

/-! ### Every buffer drained -/

theorem Emptied.of_part {s t : State} (hs : Emptied s) (hpart : SamePart s t) (hloops : ∀ p, (t.pos p).loops = (s.pos p).loops) :
    Emptied t where
  loop p l := by rw [State.loop, hloops]; exact hs.loop p l
  orbit o := by rw [hpart]; exact hs.orbit o
  queue := by rw [hpart]; exact hs.queue
  orders := by rw [hpart]; exact hs.orders

/-- The error tones of several keys, as far as they have room (R75, R156). -/
def errorsAfter (n : Nat) (txq : List TxEntry) : List TxEntry :=
  txq ++ List.replicate (min n (4 - (txq.filter TxEntry.isTone).length)) (.tone .error)

theorem errorsAfter_succ (n : Nat) (txq : List TxEntry) :
    errorsAfter n (txq ++ if (txq.filter TxEntry.isTone).length < 4 then [.tone .error] else []) = errorsAfter (n + 1) txq := by
  unfold errorsAfter
  by_cases h : (txq.filter TxEntry.isTone).length < 4
  · have hcount : ((txq ++ [TxEntry.tone .error]).filter TxEntry.isTone).length = (txq.filter TxEntry.isTone).length + 1 := by
      rw [List.filter_append, List.length_append]
      rfl
    have hmin : min (n + 1) (4 - (txq.filter TxEntry.isTone).length) =
        min n (4 - ((txq.filter TxEntry.isTone).length + 1)) + 1 := by omega
    rw [if_pos h, hcount, hmin, List.replicate_succ, List.append_assoc]
    rfl
  · have hroom : 4 - (txq.filter TxEntry.isTone).length = 0 := by omega
    rw [if_neg h, List.append_nil, hroom, Nat.min_zero, Nat.min_zero]

/-- The effect of a whole key buffer over an emptied Call Table. -/
structure KeysOverEmpty (s t : State) (p : Pos) (ks : List KeyMsg) : Prop where
  part : SamePart s t
  others : s.sameOthers t p
  wires : (s.pos p).sameWires (t.pos p)
  keys : (t.pos p).keys = []
  night : (∀ k ∈ ks, leavesNight k) → t.night = s.night ∧ t.nightDelay = s.nightDelay
  tones : (∀ k ∈ ks, KeyKind.isLoopKey k.kind = true) →
    t.pos p = { s.pos p with keys := [], txq := errorsAfter ks.length (s.pos p).txq }

theorem keysOverEmpty_drain {s : State} (hs : Emptied s) (p : Pos) {ks : List KeyMsg} (hks : (s.pos p).keys = ks) :
    KeysOverEmpty s (s.drain p ks.length) p ks := by
  induction ks generalizing s with
  | nil =>
    refine ⟨rfl, fun _ _ => rfl, .refl _, hks, fun _ => ⟨rfl, rfl⟩, fun _ => ?_⟩
    have hnone : errorsAfter 0 (s.pos p).txq = (s.pos p).txq := by rw [errorsAfter, Nat.zero_min]; exact List.append_nil _
    rw [List.length_nil, hnone, ← hks]
    rfl
  | cons k rest ih =>
    have hwait : s.keyWaits p k = false := Bool.eq_false_iff.2 fun hc => by
      obtain ⟨-, l, i, -, hslot, -⟩ := (keyWaits_iff s p k).1 hc
      rw [hs.loop] at hslot
      cases hslot
    have hdrain : s.drain p (k :: rest).length = ((s.updPos p fun q => { q with keys := rest }).evalKey p k).drain p rest.length := by
      rw [List.length_cons, State.drain, hks]
      simp only [hwait, Bool.false_eq_true, if_false]
    have hwires : (s.pos p).sameWires ((s.updPos p fun q => { q with keys := rest }).pos p) := by
      rw [pos_updPos_self]
      exact .refl _
    have hothers : s.sameOthers (s.updPos p fun q => { q with keys := rest }) p := fun q hq => pos_updPos_ne _ _ _ _ (Ne.symm hq)
    have hempty : Emptied (s.updPos p fun q => { q with keys := rest }) := hs.of_part rfl fun q => by
      by_cases hq : q = p
      · subst hq
        exact hwires.1
      · rw [hothers q hq]
    have hkey := keyOverEmpty_evalKey hempty p k
    have hempty' := hempty.of_part hkey.part fun q => by
      by_cases hq : q = p
      · subst hq
        exact hkey.wires.1
      · rw [hkey.others q hq]
    have hrest := ih hempty' (by rw [hkey.keys, pos_updPos_self])
    rw [hdrain]
    refine ⟨(SamePart.trans (t := s.updPos p fun q => { q with keys := rest }) rfl hkey.part).trans hrest.part, fun q hq => (hrest.others q hq).trans ((hkey.others q hq).trans
      (hothers q hq)), hwires.trans (hkey.wires.trans hrest.wires), hrest.keys, fun hall => ?_, fun hall => ?_⟩
    · obtain ⟨hk, hall⟩ := List.forall_mem_cons.1 hall
      obtain ⟨hn, hd⟩ := hkey.night hk
      obtain ⟨hn', hd'⟩ := hrest.night hall
      exact ⟨hn'.trans hn, hd'.trans hd⟩
    · obtain ⟨hk, hall⟩ := List.forall_mem_cons.1 hall
      rw [hrest.tones hall, hkey.tone hk, State.errorTone, pos_updPos_self, pos_updPos_self, sound_eq, List.length_cons,
        ← errorsAfter_succ] <;> rfl

/-- What the keys of every position do over an emptied Call Table. -/
structure AllKeysOverEmpty (s t : State) (ps : List Pos) : Prop where
  part : SamePart s t
  others : ∀ p, p ∉ ps → t.pos p = s.pos p
  wires : ∀ p, (s.pos p).sameWires (t.pos p)
  keys : ∀ p ∈ ps, (t.pos p).keys = []
  night : (∀ p, ∀ k ∈ (s.pos p).keys, leavesNight k) → t.night = s.night ∧ t.nightDelay = s.nightDelay
  tones : ∀ p ∈ ps, (∀ k ∈ (s.pos p).keys, KeyKind.isLoopKey k.kind = true) →
    t.pos p = { s.pos p with keys := [], txq := errorsAfter (s.pos p).keys.length (s.pos p).txq }

theorem allKeysOverEmpty {s : State} (hs : Emptied s) (ps : List Pos) (hn : ps.Nodup) :
    AllKeysOverEmpty s (ps.foldl State.drainKeys s) ps := by
  induction ps generalizing s with
  | nil => exact ⟨rfl, fun _ _ => rfl, fun _ => .refl _, nofun, fun _ => ⟨rfl, rfl⟩, nofun⟩
  | cons p ps ih =>
    obtain ⟨hp, hn⟩ := List.nodup_cons.1 hn
    have hfirst : KeysOverEmpty s (s.drainKeys p) p (s.pos p).keys := keysOverEmpty_drain hs p rfl
    have hwires (q : Pos) : (s.pos q).sameWires ((s.drainKeys p).pos q) := by
      by_cases hq : q = p
      · subst hq
        exact hfirst.wires
      · rw [hfirst.others q hq]
        exact .refl _
    have hrest := ih (hs.of_part hfirst.part fun q => (hwires q).1) hn
    have hlast : (ps.foldl State.drainKeys (s.drainKeys p)).pos p = (s.drainKeys p).pos p := hrest.others p hp
    have hmem (q : Pos) (hq : q ∈ ps) : q ≠ p := fun hc => hp (hc ▸ hq)
    rw [List.foldl_cons]
    refine ⟨hfirst.part.trans hrest.part, fun q hq => ?_, fun q => (hwires q).trans (hrest.wires q), fun q hq => ?_, fun hall => ?_,
      fun q hq hall => ?_⟩
    · exact (hrest.others q fun hc => hq (List.mem_cons_of_mem _ hc)).trans (hfirst.others q fun hc => hq (hc ▸ List.mem_cons_self))
    · obtain rfl | hq := List.mem_cons.1 hq
      · rw [hlast]
        exact hfirst.keys
      · exact hrest.keys q hq
    · obtain ⟨hnight, hdelay⟩ := hfirst.night (hall p)
      obtain ⟨hnight', hdelay'⟩ := hrest.night fun q k hk => by
        by_cases hq : q = p
        · subst hq
          rw [hfirst.keys] at hk
          cases hk
        · rw [hfirst.others q hq] at hk
          exact hall q k hk
      exact ⟨hnight'.trans hnight, hdelay'.trans hdelay⟩
    · obtain rfl | hq := List.mem_cons.1 hq
      · rw [hlast]
        exact hfirst.tones hall
      · have hsame := hfirst.others q (hmem q hq)
        rw [hrest.tones q hq (by rw [hsame]; exact hall), hsame]

theorem keysOverEmpty_drainAll {s : State} (hs : Emptied s) : AllKeysOverEmpty s s.drainAll allPos :=
  allKeysOverEmpty hs allPos (by decide)

end Sys2Proof.Machine
end

section
/-! PROOFS. The failure of the link at an unanswered head of the window (R136, R137). -/

namespace Sys2Proof.Machine

/-! ### The test of the head, and ORDER_TIMEOUT -/

/-- An entry marked as found expired (log 4). -/
def foundAt (i : Slot) (d : Tick) (e : Entry) : Entry := if e.slot = i then { e with state := .sent d true } else e

theorem foundAt_slot (i : Slot) (d : Tick) (e : Entry) : (foundAt i d e).slot = e.slot := by
  unfold foundAt
  split <;> rfl

/-- The advance at which the head of the window is found expired. -/
theorem advance_found {s : State} {e : Entry} {d : Tick} {f : Bool} (ha : s.answering e) (he : e.state = .sent d f)
    (hd : (s.tick + 1 - d).toNat < 32768) : s.advance = { s.ticked with orders := s.orders.map (foundAt e.slot d) } := by
  have hhead : s.ticked.headEntry = some e := headEntry_of_answering (s := s.ticked) ha
  have htest : s.advance = s.ticked.testHead := rfl
  have hexp : expired s.ticked.tick d = true := (expired_iff _ _).2 hd
  rw [htest, State.testHead, hhead]
  simp only [he, hexp, if_true]
  rfl

theorem headFound_advance {s : State} {e : Entry} {d : Tick} {f : Bool} (ha : s.answering e) (he : e.state = .sent d f)
    (hd : (s.tick + 1 - d).toNat < 32768) : s.advance.headFound = true := by
  obtain ⟨hup, hwin, hentry⟩ := ha
  have hfind : (s.orders.map (foundAt e.slot d)).find? (fun x => x.slot == e.slot) = some (foundAt e.slot d e) := by
    have hsame : ((fun x : Entry => x.slot == e.slot) ∘ foundAt e.slot d) = fun x => x.slot == e.slot := by
      funext x
      rw [Function.comp_apply, foundAt_slot]
    rw [List.find?_map, hsame]
    exact congrArg (Option.map _) hentry
  have hhead : s.advance.headEntry = some (foundAt e.slot d e) := by
    rw [advance_found ⟨hup, hwin, hentry⟩ he hd, State.headEntry]
    exact (Option.bind_eq_some_iff).2 ⟨e.slot, hwin, hfind⟩
  rw [State.headFound, hhead, foundAt, if_pos rfl]

theorem exec_orderTimeout_found {t : State} (up : t.link = .up) (h : t.headFound = true) : exec .orderTimeout t = .next t.linkFailure :=
  congrArg Host.Outcome.next (if_pos (by rw [up, h]; rfl))

/-! ### The parts of the failure -/

/-- The Call Table emptied and the link FAILED. -/
def State.failed (s : State) : State := { s.clearCalls with link := .failed }

theorem emptied_failed (s : State) : Emptied s.failed :=
  ⟨clearCalls_loop s, clearCalls_orbit s, rfl, rfl⟩

theorem pos_failed (s : State) (p : Pos) : s.failed.pos p = (s.pos p).emptied := clearCalls_pos s p

/-- EXCHANGE_DOWN at every position. -/
def State.downShown (s : State) : State := allPos.foldl (fun t p => t.raiseKind p .exchangeDown) s

theorem linkFailure_eq (s : State) : s.linkFailure = s.failed.drainAll.downShown.refresh := rfl

theorem pos_downShown (s : State) (p : Pos) : s.downShown.pos p = (s.pos p).raiseKind s.tick .exchangeDown :=
  foldl_allPos (g := fun now _ q => q.raiseKind now .exchangeDown) (fun s p q => pos_raiseKind s p q _) (fun _ _ => rfl) s p

/-- Raising alerts touches the positions alone. -/
theorem downShown_frame (s : State) : s.downShown = { s with positions := s.downShown.positions } :=
  foldl_related (R := fun s t : State => t = { s with positions := t.positions }) (fun _ => rfl)
    (fun {s t u} h h' => by rw [h', h]) _ (fun _ _ => rfl) allPos s

/-- The state after the failure, but for positions and night state that of the emptied Call Table. -/
theorem linkFailure_part (s : State) : SamePart s.failed s.linkFailure ∧ s.linkFailure.night = s.failed.drainAll.night ∧
    s.linkFailure.nightDelay = s.failed.drainAll.nightDelay := by
  obtain ⟨hpart, -⟩ := keysOverEmpty_drainAll (emptied_failed s)
  have hdown := downShown_frame s.failed.drainAll
  obtain ⟨hrefresh, -⟩ := refresh_same s.failed.drainAll.downShown
  rw [linkFailure_eq]
  generalize s.failed.drainAll = v at *
  generalize v.downShown = w at *
  generalize w.refresh = u at *
  refine ⟨?_, by rw [hrefresh, hdown], by rw [hrefresh, hdown]⟩
  have hnight : u.night = v.night := by rw [hrefresh, hdown]
  have hdelay : u.nightDelay = v.nightDelay := by rw [hrefresh, hdown]
  unfold SamePart at *
  rw [hnight, hdelay, hrefresh, hdown, hpart]

/-- Each position after the failure, but for its transmit queue. -/
theorem pos_linkFailure (s : State) (p : Pos) :
    s.linkFailure.pos p = { (s.failed.drainAll.pos p).raiseKind s.failed.drainAll.tick .exchangeDown with
      txq := (s.linkFailure.pos p).txq } := by
  rw [← pos_downShown]
  exact (refresh_same s.failed.drainAll.downShown).2 p

theorem linkFailure_tones (s : State) (p : Pos) : (s.linkFailure.pos p).txq.filter TxEntry.isTone =
    ((s.failed.drainAll.pos p).raiseKind s.failed.drainAll.tick .exchangeDown).txq.filter TxEntry.isTone := by
  rw [← pos_downShown]
  exact refresh_tones _ p

theorem raiseKind_wires (q : Position) (now : Tick) (k : AlertKind) : q.sameWires (q.raiseKind now k) ∧
    (q.raiseKind now k).keys = q.keys ∧ (q.raiseKind now k).state = q.state ∧ (q.raiseKind now k).note = q.note := by
  rw [raiseKind_frame]
  exact ⟨⟨rfl, rfl, rfl, rfl, rfl, rfl, rfl, rfl, rfl⟩, rfl, rfl, rfl⟩

theorem linkFailure_wires (s : State) (p : Pos) : (s.pos p).sameWires { s.linkFailure.pos p with loops := (s.pos p).loops } ∧
    (s.linkFailure.pos p).loops = Vector.replicate 6 .idle ∧ (s.linkFailure.pos p).keys = [] := by
  have hdrain := keysOverEmpty_drainAll (emptied_failed s)
  have hkeys := hdrain.keys p (mem_allPos p)
  have hu := pos_linkFailure s p
  obtain ⟨l1, m1, n1, o1, c1, t1, u1, r1, x1⟩ := hdrain.wires p
  obtain ⟨⟨l2, m2, n2, o2, c2, t2, u2, r2, x2⟩, k2, -⟩ := raiseKind_wires (s.failed.drainAll.pos p) s.failed.drainAll.tick
    .exchangeDown
  rw [pos_failed] at l1 m1 n1 o1 c1 t1 u1 r1 x1
  generalize s.linkFailure.pos p = q at *
  generalize s.failed.drainAll.pos p = v at *
  generalize v.raiseKind s.failed.drainAll.tick .exchangeDown = w at *
  rw [hu]
  exact ⟨⟨rfl, m2.trans m1, n2.trans n1, o2.trans o1, c2.trans c1, t2.trans t1, u2.trans u1, r2.trans r1, x2.trans x1⟩,
    l2.trans l1, k2.trans hkeys⟩

/-- What the failure empties and what it keeps (R137). -/
theorem failed_part {s t u : State} {es : List Entry} (ht : t = { s.ticked with orders := es }) (hu : SamePart t.failed u) :
    (u.link = .failed ∧ u.orders = [] ∧ u.window = [] ∧ u.paused = false ∧ (∀ i, u.slot i = .free) ∧ u.queue = [] ∧
      (∀ o, u.orbit o = .empty) ∧ u.camp = []) ∧
    u.tenants = s.tenants ∧ u.timing = s.timing ∧ u.tick = s.tick + 1 ∧ u.pointer = s.pointer ∧ u.xout = s.xout ∧
      u.pending = s.pending ∧ u.poseq = s.poseq ∧ u.xrate = s.xrate ∧ u.xrx = s.xrx.advance ∧ u.xline = s.xline := by
  have hslot : ∀ i, t.failed.slot i = .free := clearCalls_slot t
  have horbit : ∀ o, t.failed.orbit o = .empty := clearCalls_orbit t
  unfold SamePart at hu
  refine ⟨⟨?_, ?_, ?_, ?_, fun i => ?_, ?_, fun o => ?_, ?_⟩, ?_⟩
  · rw [hu]; rfl
  · rw [hu]; rfl
  · rw [hu]; rfl
  · rw [hu]; rfl
  · rw [hu]; exact hslot i
  · rw [hu]; rfl
  · rw [hu]; exact horbit o
  · rw [hu]; rfl
  · subst ht
    rw [hu]
    exact ⟨rfl, rfl, rfl, rfl, rfl, rfl, rfl, rfl, rfl, rfl⟩

/-! ### A position where only loop keys wait -/

theorem raisedTones_congr_tones {q q' : Position} (hstate : q'.state = q.state) (hlatch : q'.latchMask = q.latchMask)
    (htone : q'.toneMask = q.toneMask) (htones : q'.txq.filter TxEntry.isTone = q.txq.filter TxEntry.isTone) (k : AlertKind) :
    raisedTones q' k = raisedTones q k := by
  simp only [raisedTones, hstate, hlatch, htone, htones]

theorem raisedTones_tones (q : Position) (k : AlertKind) : (raisedTones q k).filter TxEntry.isTone = raisedTones q k := by
  unfold raisedTones
  split <;> rfl

theorem errorsAfter_tones (n : Nat) (txq : List TxEntry) : (errorsAfter n txq).filter TxEntry.isTone =
    txq.filter TxEntry.isTone ++ List.replicate (min n (4 - (txq.filter TxEntry.isTone).length)) (.tone .error) := by
  rw [errorsAfter, List.filter_append]
  exact congrArg _ (List.filter_eq_self.2 fun e he => by rw [List.eq_of_mem_replicate he]; rfl)

/-- EXCHANGE_DOWN enters where the mask has it and it does not stand there (R162). -/
def Position.shows (q : Position) (k : AlertKind) : Prop :=
  ((q.state = .opened ∨ q.state = .withdrawn) ∧ q.latchMask.getLsbD k.bit = true) ∧ ∀ a ∈ q.alerts, a.kind ≠ k

theorem raiseKind_shows {q : Position} {k : AlertKind} (h : q.shows k) (now : Tick) : q.raiseKind now k = { q with
    alerts := q.alerts ++ [⟨k, none⟩]
    toneRepeat := if q.toneMask.getLsbD k.bit = true then some (now + 30) else q.toneRepeat
    txq := q.txq ++ raisedTones q k } := (raiseKind_eq q now k).trans (if_pos h)

theorem raiseKind_not_shows {q : Position} {k : AlertKind} (h : ¬ q.shows k) (now : Tick) : q.raiseKind now k = q :=
  (raiseKind_eq q now k).trans (if_neg h)

/-- What a position shows after a position-level alert. -/
theorem view_raiseKind {u : State} {p : Pos} {q : Position} {k : AlertKind} (hu : u.pos p = { q.raiseKind u.tick k with
    txq := (u.pos p).txq }) :
    (q.shows k → u.view p = ⟨q.alerts ++ [⟨k, none⟩], u.repeatRaised p k q.toneRepeat⟩) ∧
      (¬ q.shows k → u.view p = ⟨q.alerts, q.toneRepeat⟩) := by
  have hmask : (u.pos p).toneMask = q.toneMask := by rw [hu, raiseKind_frame]
  refine ⟨fun h => ?_, fun h => ?_⟩
  · rw [raiseKind_shows h] at hu
    simp only [State.view, State.repeatRaised, hmask]
    rw [hu]
  · rw [raiseKind_not_shows h] at hu
    simp only [State.view]
    rw [hu]

theorem tones_raiseKind (q : Position) (now : Tick) (k : AlertKind) :
    (q.shows k → (q.raiseKind now k).txq.filter TxEntry.isTone =
      q.txq.filter TxEntry.isTone ++ raisedTones { q with txq := q.txq.filter TxEntry.isTone } k) ∧
    (¬ q.shows k → (q.raiseKind now k).txq.filter TxEntry.isTone = q.txq.filter TxEntry.isTone) := by
  refine ⟨fun h => ?_, fun h => ?_⟩
  · have hidem : (q.txq.filter TxEntry.isTone).filter TxEntry.isTone = q.txq.filter TxEntry.isTone := by
      rw [List.filter_filter]
      exact List.filter_congr fun e _ => Bool.and_self _
    rw [raiseKind_shows h, List.filter_append, raisedTones_tones,
      raisedTones_congr_tones (q := q) (q' := { q with txq := q.txq.filter TxEntry.isTone }) rfl rfl rfl hidem]
  · rw [raiseKind_not_shows h]

theorem exists_of_raiseKind {q : Position} {k : AlertKind} (hs : q.state = .opened ∨ q.state = .withdrawn)
    (hm : q.latchMask.getLsbD k.bit = true) (now : Tick) : ∃ a ∈ (q.raiseKind now k).alerts, a.kind = k := by
  by_cases h : ∀ a ∈ q.alerts, a.kind ≠ k
  · rw [raiseKind_eq, if_pos ⟨⟨hs, hm⟩, h⟩]
    exact ⟨⟨k, none⟩, List.mem_append_right _ List.mem_cons_self, rfl⟩
  · rw [raiseKind_eq, if_neg fun hc => h hc.2]
    push Not at h
    exact h

end Sys2Proof.Machine

namespace Sys2Proof
open Sys2Proof.Machine

/-- Settles O19. -/
theorem unansweredHeadFailsTheLink : Obligations.UnansweredHeadFailsTheLink := by
  intro s pcar e d f hcar ha he hd
  have hadvance := advance_found ha he hd
  have hpos (p : Pos) : s.advance.pos p = { s.pos p with rx := (s.pos p).rx.advance } := by
    rw [← pos_ticked, hadvance]
    rfl
  have htick : exec (.tick pcar) s = .next s.advance := congrArg Host.Outcome.next
    (sampleCarriers_agree (s := s.advance) (fun p => by rw [hpos]; exact hcar p) [0, 1, 2, 3])
  have hup : s.advance.link = .up := by rw [hadvance]; exact ha.1
  refine ⟨_, _, htick, exec_orderTimeout_found hup (headFound_advance ha he hd), ?_⟩
  obtain ⟨hpart, hnight, hdelay⟩ := linkFailure_part s.advance
  have hwires := linkFailure_wires s.advance
  have hu := pos_linkFailure s.advance
  have htones := linkFailure_tones s.advance
  have hdrain := keysOverEmpty_drainAll (emptied_failed s.advance)
  have hv := pos_failed s.advance
  generalize s.advance.linkFailure = u at *
  generalize s.advance.failed.drainAll = v at *
  generalize s.advance = t at *
  obtain ⟨⟨hlink, horders, hwindow, hpaused, hslots, hqueue, horbits, hcamp⟩, hkept⟩ := failed_part hadvance hpart
  have hloops (p : Pos) (l : LoopNo) : u.loop p l = .idle := by
    rw [State.loop, (hwires p).2.1]
    exact Vector.getElem_replicate _
  have hcarried (p : Pos) : (t.failed.pos p) = ({ s.pos p with rx := (s.pos p).rx.advance } : Position).emptied := by
    rw [hv, hpos]
  obtain ⟨k1, k2, k3, k4, k5, k6, k7, k8, k9, k10⟩ := hkept
  refine ⟨hlink, horders, hwindow, hpaused, hslots, hqueue, horbits, hcamp, hloops, k1, k2, k3, k4, k5, k6, k7, k8, k9, k10,
    fun hall => ?night, fun p => ?settings, fun p hall => ?shown⟩
  case night =>
    have hkeys : ∀ p, ∀ k ∈ (t.failed.pos p).keys, leavesNight k := fun p k hk => hall p k (by rw [hcarried] at hk; exact hk)
    obtain ⟨hn, hd⟩ := hdrain.night hkeys
    have hfailed : t.failed.night = s.night ∧ t.failed.nightDelay = s.nightDelay := by
      rw [hadvance]
      exact ⟨rfl, rfl⟩
    exact ⟨hnight.trans (hn.trans hfailed.1), hdelay.trans (hd.trans hfailed.2)⟩
  case settings =>
    obtain ⟨⟨-, h2, h3, h4, h5, h6, h7, h8, h9⟩, -, hkeys⟩ := hwires p
    rw [hpos] at h2 h3 h4 h5 h6 h7 h8 h9
    exact ⟨hkeys, ⟨rfl, rfl, h2, h3, h4, h5, h6, h7, rfl, h9⟩, h8⟩
  case shown =>
    have hkept : t.failed.view p = s.viewKept p (fun a => a.loop.isNone) (s.view p) :=
      (clearCalls_view t p).trans (by
        have hview : t.view p = s.view p := by simp only [State.view, hpos]
        rw [hview]
        simp only [State.viewKept, hpos])
    have hq := hdrain.tones p (mem_allPos p) (by rw [hcarried]; exact hall)
    have htick : v.tick = u.tick := (congrArg State.tick hdrain.part).trans (congrArg State.tick hpart).symm
    have halerts : (t.failed.pos p).alerts = (s.viewKept p (fun a => a.loop.isNone) (s.view p)).alerts :=
      congrArg AlertView.alerts hkept
    have hrepeat : (t.failed.pos p).toneRepeat = (s.viewKept p (fun a => a.loop.isNone) (s.view p)).repeats :=
      congrArg AlertView.repeats hkept
    have hup := hu p
    have htonesp := htones p
    rw [htick] at hup htonesp
    rw [hcarried] at hq halerts hrepeat
    have hstate : (v.pos p).state = (s.pos p).state := by rw [hq]; rfl
    have hnote : (v.pos p).note = (s.pos p).note := by rw [hq]; rfl
    have hlatch : (v.pos p).latchMask = (s.pos p).latchMask := by rw [hq]; rfl
    have hmask : (v.pos p).toneMask = (s.pos p).toneMask := by rw [hq]; rfl
    have hlist : (v.pos p).alerts = (s.viewKept p (fun a => a.loop.isNone) (s.view p)).alerts := by rw [hq]; exact halerts
    have hagain : (v.pos p).toneRepeat = (s.viewKept p (fun a => a.loop.isNone) (s.view p)).repeats := by rw [hq]; exact hrepeat
    have htxq : (v.pos p).txq = errorsAfter (s.pos p).keys.length (s.pos p).txq := by rw [hq]; rfl
    obtain ⟨-, -, hstate', hnote'⟩ := raiseKind_wires (v.pos p) u.tick .exchangeDown
    obtain ⟨hshow, hhide⟩ := view_raiseKind hup
    obtain ⟨hsound, hsilent⟩ := tones_raiseKind (v.pos p) u.tick .exchangeDown
    rw [htxq, errorsAfter_tones] at hsound hsilent
    rw [hlist, hagain] at hshow hhide
    rw [Position.shows, hstate, hlatch, hlist, and_assoc] at hshow hhide hsound hsilent
    refine ⟨?_, ?_, fun hs hm => ?_, fun h => ⟨hshow h, ?_⟩, fun h => ⟨hhide h, htonesp.trans (hsilent h)⟩⟩
    · rw [hup]
      exact hstate'.trans hstate
    · rw [hup]
      exact hnote'.trans hnote
    · rw [hup]
      exact exists_of_raiseKind (by rw [hstate]; exact hs) (by rw [hlatch]; exact hm) _
    · refine htonesp.trans ((hsound h).trans (congrArg _ ?_))
      simp only [raisedTones, hmask]

end Sys2Proof
end

section
/-! PROOFS. The machine after reset meets every invariant (R151). -/

namespace Sys2Proof.Machine

/-! ### A part with no call -/

/-- With no call, every holder is empty (R10). -/
theorem holdersOk_of_no_call {s : State} (hs : Emptied s) (hslot : ∀ i, s.slot i = .free) (hcamp : s.camp = []) : s.holdersOk := by
  have hnone {i : Slot} {r : Record} (h : s.slot i = .live r) : False := by
    rw [hslot] at h
    cases h
  refine ⟨fun p l => ⟨fun i h => ?_, fun i h => ?_, fun i h => ?_⟩, fun i r h => (hnone h).elim, fun i r h => (hnone h).elim,
    ⟨fun o i h => ?_, fun o i h => ?_, fun o o' i h => ?_⟩, ?_, fun p l m => ⟨fun h => ?_, fun h => ?_⟩⟩
  · rw [hs.loop] at h; cases h
  · rw [hs.loop] at h; cases h
  · rw [hs.loop] at h; cases h
  · rw [hs.orbit] at h; cases h
  · rw [hs.orbit] at h; cases h
  · rw [hs.orbit] at h; cases h
  · have horders : s.campOrders = [] := by rw [State.campOrders, hs.orders]; rfl
    refine ⟨by rw [hcamp]; exact List.nodup_nil, ?_, ?_, fun ext => ?_, ?_⟩
    · rw [hcamp]; exact nofun
    · rw [hcamp]; exact nofun
    · rw [horders]; exact Nat.zero_le 4
    · rw [horders, hcamp]; exact Nat.zero_le 16
  · simp only [State.holdsVoice, State.retrieved, hs.loop] at h
    cases h
  · rw [hs.loop] at h; cases h

theorem emptied_atReset (poseq : BitVec 2) (xrate : Bool) (pcar : BitVec 4) : Emptied (State.atReset poseq xrate pcar) where
  loop p l := by
    rw [State.loop, pos_atReset]
    exact Vector.getElem_replicate _
  orbit o := Vector.getElem_replicate _
  queue := rfl
  orders := rfl

end Sys2Proof.Machine

namespace Sys2Proof
open Sys2Proof.Machine

/-- Settles O3. -/
theorem resetMeetsTheInvariants : Obligations.ResetMeetsTheInvariants := by
  have hslot (i : Slot) : State.reset.slot i = .free := slot_atReset _ _ _ i
  have hlive {i : Slot} {r : Record} (h : State.reset.slot i = .live r) : False := by
    rw [hslot] at h
    cases h
  have hpos (p : Pos) : State.reset.pos p = Position.atReset 3 0xF p := pos_atReset _ _ _ p
  refine ⟨⟨List.nodup_nil, List.nodup_nil, fun i => ⟨nofun, fun ⟨_, h, _⟩ => (nomatch h)⟩, nofun, fun i ref h => ?_⟩,
    ⟨List.nodup_nil, fun i => ⟨nofun, fun ⟨r, h, _⟩ => (hlive h).elim⟩⟩, nightOk_atReset _ _ _, fun _ => ⟨rfl, hslot⟩,
    ⟨Nat.zero_le 8, fun p => ?_⟩, fun p => ?_, ?_, ?_, holdersOk_of_no_call (emptied_atReset _ _ _) hslot rfl⟩
  · rw [hslot] at h
    cases h
  · rw [hpos]
    have hquiet : (Position.atReset 3 0xF p).txq.filter TxEntry.isTone = [] := by
      unfold Position.atReset
      cases equippedBy 3 p <;> rfl
    exact ⟨Nat.zero_le 2, by rw [hquiet]; exact Nat.zero_le 4⟩
  · rw [hpos]
    exact ⟨nofun, List.nodup_nil⟩
  · refine ⟨fun i j ref h => ?_, fun i => by rw [hslot]; rfl⟩
    rw [hslot] at h
    cases h
  · intro p h
    rw [hpos] at h
    cases h

end Sys2Proof
end

section
/-! PROOFS. Characters and frames: the receivers, the receive lines on an empty command queue, and the layouts (8.3). -/

namespace Sys2Proof.Machine

/-! ### Frames (R143, R144) -/

theorem foldl_add_byte (bs : List Byte) (x : Byte) : bs.foldl (fun a b => a + b) x = x + bs.foldl (fun a b => a + b) 0 := by
  induction bs generalizing x with
  | nil => exact (add_zero x).symm
  | cons b bs ih => rw [List.foldl_cons, List.foldl_cons, ih (x + b), ih (0 + b), zero_add, add_assoc]

theorem byteSum_cons (b : Byte) (bs : List Byte) : byteSum (b :: bs) = b + byteSum bs := by
  rw [byteSum, List.foldl_cons, foldl_add_byte, zero_add]
  rfl

theorem byteSum_concat (bs : List Byte) (b : Byte) : byteSum (bs ++ [b]) = byteSum bs + b := by
  rw [byteSum, List.foldl_append]
  rfl

theorem finishFrame_ne_nothing (len : Nat) (got : List Byte) : finishFrame len got ≠ .nothing := by
  unfold finishFrame
  split
  · cases got <;> exact nofun
  · exact nofun

/-- The rest of a begun frame, character by character. -/
theorem feedAll_filling {len : Nat} {got bs : List Byte} (idle : Nat) (hbs : bs ≠ []) (hlen : got.length + bs.length = len + 2) :
    (Rx.filling len got idle).feedAll bs = (.hunting, [finishFrame len (got ++ bs)]) := by
  induction bs generalizing got idle with
  | nil => exact absurd rfl hbs
  | cons b bs ih =>
    rw [Rx.feedAll]
    cases bs with
    | nil =>
      have hlast : (got ++ [b]).length = len + 2 := by rw [List.length_append]; exact hlen
      simp only [Rx.feed, if_pos hlast, Rx.feedAll, if_neg (finishFrame_ne_nothing len (got ++ [b]))]
    | cons c cs =>
      have hmore : ¬ (got ++ [b]).length = len + 2 := by
        simp only [List.length_append, List.length_cons, List.length_nil] at hlen ⊢
        omega
      have hrest := ih (got := got ++ [b]) 0 (by exact nofun) (by
        simp only [List.length_append, List.length_cons, List.length_nil] at hlen ⊢
        omega)
      simp only [Rx.feed, if_neg hmore, if_true, hrest, List.append_assoc, List.cons_append, List.nil_append]

/-- A frame of an admitted length, taken by a hunting receiver. -/
theorem feedAll_frame {body : List Byte} (hpos : 1 ≤ body.length) (hmax : body.length ≤ 60) (typ check : Byte) :
    Rx.hunting.feedAll ([0x7E, BitVec.ofNat 8 body.length, typ] ++ body ++ [check]) =
      (.hunting, [finishFrame body.length (typ :: body ++ [check])]) := by
  have hlen : (BitVec.ofNat 8 body.length).toNat = body.length := by
    rw [BitVec.toNat_ofNat]
    exact Nat.mod_eq_of_lt (by omega)
  have hlong : ¬ ((BitVec.ofNat 8 body.length).toNat = 0 ∨ 60 < (BitVec.ofNat 8 body.length).toNat) := by
    rw [hlen]
    omega
  have hrest := feedAll_filling (len := body.length) (got := []) (bs := typ :: body ++ [check]) 0 (by exact nofun) (by
    simp only [List.length_append, List.length_cons, List.length_nil]
    omega)
  rw [List.nil_append] at hrest
  have hstart : Rx.hunting.feedAll ([0x7E, BitVec.ofNat 8 body.length, typ] ++ body ++ [check]) =
      (Rx.started 0).feedAll (BitVec.ofNat 8 body.length :: (typ :: body ++ [check])) := rfl
  have hfeed : (Rx.started 0).feed (BitVec.ofNat 8 body.length) = (.filling body.length [] 0, .nothing) := by
    rw [Rx.feed, if_neg hlong, hlen]
  rw [hstart, Rx.feedAll, hfeed]
  simp only [hrest, if_true]

theorem finishFrame_eq (typ check : Byte) (body : List Byte) :
    finishFrame body.length (typ :: body ++ [check]) =
      if BitVec.ofNat 8 body.length + typ + byteSum body + check = 0 then .frame typ body else .discarded := by
  have hsum : byteSum (oneByte body.length :: (typ :: body ++ [check])) =
      BitVec.ofNat 8 body.length + typ + byteSum body + check := by
    rw [byteSum_cons, byteSum_concat, byteSum_cons, oneByte, ← BitVec.add_assoc, ← BitVec.add_assoc]
  unfold finishFrame
  rw [hsum]
  refine if_congr Iff.rfl ?_ rfl
  exact congrArg (Received.frame typ) (List.take_left' rfl)

theorem frameBytes_eq (typ : Byte) (body : List Byte) :
    frameBytes typ body = [0x7E, BitVec.ofNat 8 body.length, typ] ++ body ++ [0 - (BitVec.ofNat 8 body.length + typ + byteSum body)] := by
  rw [frameBytes]
  simp only [byteSum_cons, BitVec.add_assoc]
  rfl

/-! ### From a frame to its command (R145, R150) -/

theorem exchangeCommand_unknown {typ : Byte} (h : typ = 0 ∨ 13 < typ.toNat) (body : List Byte) :
    Decode.exchangeCommand typ body = .unknownMessageType typ body := by
  have hne (c : Byte) (hlow : 1 ≤ c.toNat) (hhigh : c.toNat ≤ 13) : typ ≠ c := by
    rintro rfl
    obtain rfl | h := h
    · exact absurd hlow (by decide)
    · omega
  unfold Decode.exchangeCommand
  rw [if_neg (hne _ (by decide) (by decide)), if_neg (hne _ (by decide) (by decide)), if_neg (hne _ (by decide) (by decide)),
    if_neg (hne _ (by decide) (by decide)), if_neg (hne _ (by decide) (by decide)), if_neg (hne _ (by decide) (by decide)),
    if_neg (hne _ (by decide) (by decide)), if_neg (hne _ (by decide) (by decide)), if_neg (hne _ (by decide) (by decide)),
    if_neg (hne _ (by decide) (by decide)), if_neg (hne _ (by decide) (by decide)), if_neg (hne _ (by decide) (by decide)),
    if_neg (hne _ (by decide) (by decide))]

/-! ### The receive lines (log 8) -/

theorem commands_exchange (x : Received) : x.commands .exchange = match x with
    | .nothing => []
    | .frame typ body => [Decode.exchangeCommand typ body]
    | .discarded => [.frameError .exchange] := by
  cases x <;> rfl

theorem commands_position (x : Received) (p : Pos) : x.commands (.position p) = match x with
    | .nothing => []
    | .frame typ body => [.key p typ body]
    | .discarded => [.frameError (.position p)] := by
  cases x <;> rfl

theorem idle_of_exchange {s t : State} (h : s.exchangeTurn = some t) : s.idle = t := by rw [State.idle, h]

theorem positions_quiet {s : State} {p : Pos}
    (h : ∀ q < p, (s.pos q).state = .absent ∨ ((s.pos q).rx.timedOut = false ∧ takeChar (s.pos q).line = none)) :
    ∀ q < p, s.positionTurn q = none := fun q hq =>
  (positionTurn_eq_none s q).2 ((h q hq).imp_left (equipped_eq_false _).2)

theorem findSome?_finRange_eq {α : Type} {n : Nat} {f : Fin n → Option α} {b : α} {k : Fin n} (hk : f k = some b)
    (h : ∀ j < k, f j = none) : (List.finRange n).findSome? f = some b := by
  obtain ⟨front, back, hsplit⟩ := List.append_of_mem (List.mem_finRange k)
  refine List.findSome?_eq_some_iff.2 ⟨front, k, back, hsplit, hk, fun j hj => h j ?_⟩
  have hsorted := List.pairwise_lt_finRange n
  rw [hsplit, List.pairwise_append] at hsorted
  obtain ⟨-, -, hbefore⟩ := hsorted
  exact hbefore j hj k List.mem_cons_self

/-- With nothing on the exchange link, the first position with something to take has its turn. -/
theorem idle_of_position {s t : State} {p : Pos} (hx : s.exchangeTurn = none) (hp : s.positionTurn p = some t)
    (h : ∀ q < p, s.positionTurn q = none) : s.idle = t := by
  have hfirst : allPos.findSome? s.positionTurn = some t := findSome?_finRange_eq (n := 4) hp h
  rw [State.idle, hx, hfirst]
  rfl

/-! ### Characters (R152) -/

/-- Data bits, least significant first, give back the number (R152). -/
theorem foldr_bits (n k m : Nat) :
    ((List.range k).map fun i => n.testBit (i + m)).foldr (fun b a => b.toNat + 2 * a) 0 = n / 2 ^ m % 2 ^ k := by
  induction k generalizing m with
  | zero => simp [Nat.mod_one]
  | succ k ih =>
    have hbit : (n.testBit (0 + m)).toNat = n / 2 ^ m % 2 := by
      rw [Nat.zero_add, Nat.toNat_testBit]
    have hshift : ((List.range k).map fun i => n.testBit (i.succ + m)) = (List.range k).map fun i => n.testBit (i + (m + 1)) :=
      List.map_congr_left fun i _ => by rw [Nat.succ_add]; rfl
    rw [List.range_succ_eq_map, List.map_cons, List.map_map, List.foldr_cons, hbit]
    refine (congrArg (fun a => n / 2 ^ m % 2 + 2 * a) ((congrArg _ hshift).trans (ih (m + 1)))).trans ?_
    rw [Nat.pow_succ' (m := 2) (n := k), Nat.mod_mul, Nat.div_div_eq_div_mul, ← Nat.pow_succ]

theorem dataByte_bits (b : Byte) : dataByte ((List.range 8).map b.getLsbD) = b := by
  have hfold := foldr_bits b.toNat 8 0
  rw [Nat.pow_zero, Nat.div_one] at hfold
  refine BitVec.eq_of_toNat_eq ?_
  rw [dataByte, BitVec.toNat_ofNat]
  have hbits : (List.range 8).map b.getLsbD = (List.range 8).map fun i => b.toNat.testBit (i + 0) := rfl
  rw [hbits, hfold, Nat.mod_mod, Nat.mod_eq_of_lt b.isLt]

theorem takeChar_char (b : Byte) (rest : List Level) : takeChar (charLevels b ++ rest) = some (b, rest) :=
  congrArg (fun x => some (x, rest)) (dataByte_bits b)

/-! ### Layouts (R150, R153) -/

theorem extBytes_eq {ext : Digits} {n : Nat} (h : ext.length + n = 6) : extBytes ext = extField ext (List.replicate n 0) := by
  have hlen : (ext.map fun d : Fin 10 => oneByte d.val).length = ext.length := List.length_map _
  rw [extBytes, List.take_append, hlen, List.take_of_length_le (by rw [hlen]; omega), List.take_replicate,
    show min (6 - ext.length) 6 = n by omega]
  rfl

theorem timedOut_advance {rx : Rx} (b : Byte) : (rx.feed b).1.timedOut = false ∧ (rx.feed b).1.advance.timedOut = false ∧
    ((rx.feed b).1.advance.advance.timedOut = true ↔ (rx.feed b).1 ≠ .hunting) := by
  have hfresh : (rx.feed b).1 = .hunting ∨ (rx.feed b).1 = .started 0 ∨ ∃ len got, (rx.feed b).1 = .filling len got 0 := by
    cases rx with
    | hunting =>
      rw [Rx.feed]
      split
      · exact .inr (.inl rfl)
      · exact .inl rfl
    | started n =>
      rw [Rx.feed]
      split
      · exact .inl rfl
      · exact .inr (.inr ⟨_, _, rfl⟩)
    | filling len got n =>
      rw [Rx.feed]
      split
      · exact .inl rfl
      · exact .inr (.inr ⟨_, _, rfl⟩)
  obtain h | h | ⟨len, got, h⟩ := hfresh
  · rw [h]
    exact ⟨rfl, rfl, nofun, fun hc => absurd rfl hc⟩
  · rw [h]
    exact ⟨rfl, rfl, fun _ => nofun, fun _ => rfl⟩
  · rw [h]
    exact ⟨rfl, rfl, fun _ => nofun, fun _ => rfl⟩

end Sys2Proof.Machine

namespace Sys2Proof
open Sys2Proof.Machine

/-- Settles O9. -/
theorem framesAreReadBackOrDiscarded : Obligations.FramesAreReadBackOrDiscarded := by
  refine ⟨fun typ body hpos hmax => ?readBack, fun b hb => ?hunting, fun len hlen => ?length, fun typ check body hpos hmax hbad => ?check,
    fun rx b => timedOut_advance b, fun body => ⟨rfl, rfl, rfl, rfl, rfl, rfl, rfl, rfl, rfl, rfl, rfl, ?dest, ?response, fun typ h =>
      exchangeCommand_unknown h body⟩, fun s hnil => ⟨fun ht => ?exchangeTimeout, fun b rest ht hchar => ?exchangeChar⟩,
    fun s p hnil hx hline hearlier hp => ⟨fun ht => ?positionTimeout, fun b rest ht hchar => ?positionChar⟩,
    fun b n rest => ⟨rfl, ?_, ?_⟩, fun ref p l ext n typ i hext => ⟨fun o => ?order, ?_, rfl, rfl, rfl, rfl, rfl⟩,
    fun st => ?status, fun k j text => ⟨rfl, rfl, rfl⟩⟩
  case readBack =>
    have hzero : BitVec.ofNat 8 body.length + typ + byteSum body + (0 - (BitVec.ofNat 8 body.length + typ + byteSum body)) = 0 := by
      rw [zero_sub, add_neg_cancel]
    rw [frameBytes_eq, feedAll_frame hpos hmax, finishFrame_eq, if_pos hzero]
  case hunting => rw [Rx.feed, if_neg hb]
  case length =>
    have hlong : len.toNat = 0 ∨ 60 < len.toNat := hlen.imp_left fun h => by rw [h]; rfl
    have hfeed : (Rx.started 0).feed len = (.hunting, .discarded) := by rw [Rx.feed, if_pos hlong]
    have hstart : Rx.hunting.feedAll [0x7E, len] = (Rx.started 0).feedAll [len] := rfl
    rw [hstart, Rx.feedAll, hfeed]
    rfl
  case check =>
    have hsum : ¬ BitVec.ofNat 8 body.length + typ + byteSum body + check = 0 := hbad
    rw [feedAll_frame hpos hmax, finishFrame_eq, if_neg hsum]
  case dest =>
    rintro hi lo x rfl
    have hrow : Decode.destStateCommand [hi, lo, x] = if x = 2 then .destStateDestCleared [hi, lo, x] else
        .destStateAnswered [hi, lo, x] := if_congr (by simp) rfl rfl
    exact hrow
  case response =>
    rintro k hi lo o d rfl
    have hrow : Decode.responseCommand [k, hi, lo, o, d] = if o = 2 then .responseRefused [k, hi, lo, o, d] else
        if o = 3 then .responseRetry [k, hi, lo, o, d] else .responseDone [k, hi, lo, o, d] :=
      if_congr (by simp) rfl (if_congr (by simp) rfl rfl)
    exact hrow
  case exchangeTimeout => rw [step_of_nil hnil, idle_of_exchange (t := { s with pending := [.frameByteTimeout .exchange] }) (if_pos ht)]
  case exchangeChar =>
    have hturn : s.exchangeTurn = some { s with
        xline := rest, xrx := (s.xrx.feed b).1, pending := (s.xrx.feed b).2.commands .exchange } := by
      rw [State.exchangeTurn, ht, hchar]
      rfl
    rw [step_of_nil hnil, idle_of_exchange hturn, commands_exchange] <;> rfl
  case order => cases o <;> rfl
  case status =>
    intro link paused night position
    have hlink : link = st.link.code := by
      have hcode (x : LinkState) : (match x with | .down => (1 : Byte) | .up => 2 | .failed => 3) = x.code := by cases x <;> rfl
      exact hcode st.link
    have hnight : night = st.night.code := by
      have hcode (x : NightState) : (match x with | .day => (1 : Byte) | .nightPending => 2 | .night => 3) = x.code := by
        cases x <;> rfl
      exact hcode st.night
    have hposition : position = PosState.code := funext fun x => by cases x <;> rfl
    rw [hlink, hnight, hposition]
    rfl
  case positionTimeout =>
    have hexchange := (exchangeTurn_eq_none s).2 ⟨hx, hline⟩
    have hturn : s.positionTurn p = some { s with pending := [.frameByteTimeout (.position p)] } := by
      rw [State.positionTurn, if_pos ((equipped_iff _).2 hp), if_pos ht]
    rw [step_of_nil hnil, idle_of_position hexchange hturn (positions_quiet hearlier)]
  case positionChar =>
    have hexchange := (exchangeTurn_eq_none s).2 ⟨hx, hline⟩
    have hturn : s.positionTurn p = some { s.updPos p (fun q => { q with line := rest, rx := (q.rx.feed b).1 }) with
        pending := ((s.pos p).rx.feed b).2.commands (.position p) } := by
      rw [State.positionTurn, if_pos ((equipped_iff _).2 hp), ht, hchar]
      rfl
    rw [step_of_nil hnil, idle_of_position hexchange hturn (positions_quiet hearlier), commands_position] <;> rfl
  · rw [List.append_assoc, takeChar_idle, takeChar_char]
  · rw [← List.append_nil (List.replicate n true), takeChar_idle]
    rfl
  · intro o ho
    have hbytes : [0, 0] ++ extBytes ext = [0, 0] ++ extField ext (List.replicate n 0) := by rw [extBytes_eq hext]
    simp only [List.mem_cons, List.not_mem_nil, or_false] at ho
    obtain rfl | rfl | rfl := ho
    · exact hbytes
    · exact hbytes
    · exact hbytes

end Sys2Proof
end

section
/-! PROOFS. The holders of a call, seen from one slot: what refers to the slot fits its record, whatever the other slots do. -/

namespace Sys2Proof.Machine

/-! ### What refers to a slot -/

/-- The record of a slot has an order of a kind in the order list. -/
def State.ordered (s : State) (i : Slot) (o : Order) : Prop := ∃ e ∈ s.orders, e.slot = i ∧ e.order = o

theorem inFlight_iff_ordered (s : State) (i : Slot) : s.inFlight i = true ↔ ∃ o, s.ordered i o := by
  rw [inFlight_iff]
  exact ⟨fun ⟨e, he, hi⟩ => ⟨e.order, e, he, hi, rfl⟩, fun ⟨_, e, he, hi, _⟩ => ⟨e, he, hi⟩⟩

/-- A slot stands on the camp-on list of an extension (R115). -/
def State.campsOn (s : State) (i : Slot) (ext : Digits) : Prop := ∃ e ∈ s.camp, e.ext = ext ∧ i ∈ e.calls

/-- Nothing refers to a slot: no loop, no orbit, no camp-on list. -/
structure Unheld (s : State) (i : Slot) : Prop where
  loops : ∀ p l, (s.loop p l).slot? ≠ some i
  orbits : ∀ o, (s.orbit o).names i = false
  camp : ∀ ext, ¬ s.campsOn i ext

/-- What refers to a slot fits its record (R7, R10, R71, R87, R110, R115). -/
structure Fits (s : State) (i : Slot) (r : Record) : Prop where
  alerting : ∀ p l, s.loop p l = .alerting i ↔ r.mark = some (p, l)
  connecting : ∀ p l, s.loop p l = .connecting i ↔ ∃ c, r.claim = some c ∧ c.pos = p ∧ c.loop = l
  held : ∀ p l, (s.loop p l).held? = some i ↔ r.loc = .loop p l
  parked : ∀ o, s.orbit o = .occupied i ↔ r.loc = .parked o
  camped : ∀ ext, s.campsOn i ext ↔ r.loc = .camped ext
  rescued : ∀ m o, r.loc = .rescue m → m.orbit = some o → s.orbit o = .reserved i
  reserved : ∀ o, s.orbit o = .reserved i →
    (∃ p l, r.loc = .loop p l ∧ s.loop p l = .talk i) ∨ ∃ m, r.loc = .rescue m ∧ m.orbit = some o
  once : ∀ o o', (s.orbit o).names i = true → (s.orbit o').names i = true → o = o'
  marked : r.mark ≠ none → r.loc = .queued ∧ r.claim = none ∧ ∀ t, r.timer = some t → t.purpose = .offer
  claimed : ∀ c, r.claim = some c → c.granted = true → r.loc = .queued ∨ ∃ o, r.loc = .parked o

/-- The orders of a slot fit its record, its WAITING claim apart (R19, R20, R110). -/
structure OrdersFit (s : State) (i : Slot) (r : Record) : Prop where
  marked : r.mark ≠ none → s.inFlight i = false
  granted : ∀ c, r.claim = some c → c.granted = true → ∃ p l, s.ordered i (.connect p l)
  reserved : ∀ o, s.orbit o = .reserved i → s.ordered i .hold

/-- A WAITING claim waits for an order of a call that a Pickup can find (R21). -/
def WaitFits (s : State) (i : Slot) (r : Record) : Prop :=
  ∀ c, r.claim = some c → c.granted = false →
    s.inFlight i = true ∧ ((∃ o, r.loc = .parked o) ∨ ∃ o, s.orbit o = .reserved i)

/-- A slot and what refers to it are sound. -/
structure SlotOk (s : State) (i : Slot) : Prop where
  live : ∀ r, s.slot i = .live r → Fits s i r ∧ OrdersFit s i r ∧ WaitFits s i r
  other : (∀ r, s.slot i ≠ .live r) → Unheld s i

/-- The camp-on table's own bounds (R101, R115). -/
structure CampFits (s : State) : Prop where
  exts : (s.camp.map CampEntry.ext).Nodup
  lists : ∀ e ∈ s.camp, e.calls ≠ [] ∧ e.calls.Nodup
  places : ∀ e ∈ s.camp, e.calls.length + (s.campOrders.filter fun x => x == e.ext).length ≤ 4
  asked : ∀ ext, (s.campOrders.filter fun x => x == ext).length ≤ 4
  entries : s.camp.length + ((s.campOrders.filter fun x => !(s.camp.any fun e => e.ext == x)).eraseDups).length ≤ 16

/-- Every slot but one is sound, and so are the camp-on table and the voice paths. -/
structure HoldBut (i : Slot) (s : State) : Prop where
  slots : ∀ j, j ≠ i → SlotOk s j
  camp : CampFits s
  voice : s.voiceOk

theorem slot?_eq_some (x : LoopState) (i : Slot) :
    x.slot? = some i ↔ x = .alerting i ∨ x = .connecting i ∨ x.held? = some i := by
  cases x <;> simp [LoopState.slot?, LoopState.held?]

/-- Soundness slot by slot is that of the holders (R10, R7, R71, R72, R110, R115). -/
theorem holdersOk_iff (s : State) : s.holdersOk ↔ (∀ i, SlotOk s i) ∧ CampFits s ∧ s.voiceOk := by
  constructor
  · rintro ⟨hloops, hrecords, hclaims, ⟨hocc, hres, honce⟩, ⟨hexts, hlists, hplaces, hasked, hentries⟩, hvoice⟩
    refine ⟨fun i => ⟨fun r hr => ?_, fun hn => ?_⟩, ⟨hexts, fun e he => ?_, hplaces, hasked, hentries⟩, hvoice⟩
    · obtain ⟨rloop, rpark, rcamp, rresc, rmark, rclaim⟩ := hrecords i r hr
      obtain ⟨cmark, cnone, cgrant, cwait⟩ := hclaims i r hr
      have own {r' : Record} (h : s.slot i = .live r') : r' = r := by rw [hr] at h; cases h; rfl
      refine ⟨⟨fun p l => ⟨fun h => ?_, rmark p l⟩, fun p l => ⟨fun h => ?_, ?_⟩, fun p l => ⟨fun h => ?_, rloop p l⟩,
        fun o => ⟨fun h => ?_, rpark o⟩, fun ext => ⟨?_, rcamp ext⟩, rresc, fun o h => ?_, fun o o' => honce o o' i,
        fun h => ?_, fun c hc hg => (cgrant c hc hg).1⟩, ⟨fun h => ?_, fun c hc hg => ?_, fun o h => ?_⟩, fun c hc hg => ?_⟩
      · obtain ⟨r', h', -, hm⟩ := (hloops p l).1 i h
        rw [← own h']; exact hm
      · obtain ⟨r', c, h', hc⟩ := (hloops p l).2.1 i h
        rw [← own h']; exact ⟨c, hc⟩
      · rintro ⟨c, hc, rfl, rfl⟩; exact rclaim c hc
      · obtain ⟨r', h', hl⟩ := (hloops p l).2.2 i h
        rw [← own h']; exact hl
      · obtain ⟨r', h', hl⟩ := hocc o i h
        rw [← own h']; exact hl
      · rintro ⟨e, he, rfl, hi⟩
        obtain ⟨r', h', hl⟩ := (hlists e he).2.2 i hi
        rw [← own h']; exact hl
      · obtain ⟨r', h', -, hl⟩ := hres o i h
        rw [← own h']; exact hl
      · exact ⟨(cmark h).1, (cmark h).2.1, (cmark h).2.2.2⟩
      · exact (inFlight_eq_false s i).2 (cmark h).2.2.1
      · obtain ⟨-, e, he, hi, hcon⟩ := cgrant c hc hg
        cases ho : e.order with
        | connect p l => exact ⟨p, l, e, he, hi, ho⟩
        | _ => rw [ho] at hcon; simp [Order.isConnect] at hcon
      · obtain ⟨r', h', hhold, -⟩ := hres o i h
        exact hhold
      · exact ⟨(inFlight_iff s i).2 (cwait c hc hg).1, (cwait c hc hg).2⟩
    · refine ⟨fun p l h => ?_, fun o => ?_, ?_⟩
      · rcases (slot?_eq_some _ _).1 h with h | h | h
        · obtain ⟨r, hr, -⟩ := (hloops p l).1 i h; exact hn r hr
        · obtain ⟨r, -, hr, -⟩ := (hloops p l).2.1 i h; exact hn r hr
        · obtain ⟨r, hr, -⟩ := (hloops p l).2.2 i h; exact hn r hr
      · rw [Bool.eq_false_iff]
        intro h
        rcases (names_iff _ _).1 h with h | h
        · obtain ⟨r, hr, -⟩ := hres o i h; exact hn r hr
        · obtain ⟨r, hr, -⟩ := hocc o i h; exact hn r hr
      · rintro ext ⟨e, he, -, hi⟩
        obtain ⟨r, hr, -⟩ := (hlists e he).2.2 i hi
        exact hn r hr
    · exact ⟨(hlists e he).1, (hlists e he).2.1⟩
  · rintro ⟨hslots, hcamp, hvoice⟩
    have live {i : Slot} (h : ¬ Unheld s i) : ∃ r, s.slot i = .live r ∧ Fits s i r ∧ OrdersFit s i r ∧ WaitFits s i r := by
      by_contra hc
      push Not at hc
      refine h ((hslots i).other fun r hr => ?_)
      obtain ⟨h1, h2, h3⟩ := (hslots i).live r hr
      exact hc r hr h1 h2 h3
    have looped {i : Slot} {p : Pos} {l : LoopNo} (h : (s.loop p l).slot? = some i) := live fun hu => hu.loops p l h
    have orbited {i : Slot} {o : OrbitNo} (h : (s.orbit o).names i = true) :=
      live (i := i) fun hu => by rw [hu.orbits o] at h; cases h
    refine ⟨fun p l => ⟨fun i h => ?_, fun i h => ?_, fun i h => ?_⟩, fun i r hr => ?_, fun i r hr => ?_,
      ⟨fun o i h => ?_, fun o i h => ?_, fun o o' i h h' => ?_⟩,
      ⟨hcamp.exts, fun e he => ⟨(hcamp.lists e he).1, (hcamp.lists e he).2, fun i hi => ?_⟩, hcamp.places, hcamp.asked,
        hcamp.entries⟩, hvoice⟩
    · obtain ⟨r, hr, hf, -⟩ := looped ((slot?_eq_some _ _).2 (.inl h))
      have hm := (hf.alerting p l).1 h
      exact ⟨r, hr, (hf.marked (by simp [hm])).1, hm⟩
    · obtain ⟨r, hr, hf, -⟩ := looped ((slot?_eq_some _ _).2 (.inr (.inl h)))
      obtain ⟨c, hc⟩ := (hf.connecting p l).1 h
      exact ⟨r, c, hr, hc⟩
    · obtain ⟨r, hr, hf, -⟩ := looped ((slot?_eq_some _ _).2 (.inr (.inr h)))
      exact ⟨r, hr, (hf.held p l).1 h⟩
    · obtain ⟨hf, -, -⟩ := (hslots i).live r hr
      exact ⟨fun p l => (hf.held p l).2, fun o => (hf.parked o).2, fun ext => (hf.camped ext).2, hf.rescued,
        fun p l => (hf.alerting p l).2, fun c hc => (hf.connecting c.pos c.loop).2 ⟨c, hc, rfl, rfl⟩⟩
    · obtain ⟨hf, ho, hw⟩ := (hslots i).live r hr
      refine ⟨fun h => ⟨(hf.marked h).1, (hf.marked h).2.1, (inFlight_eq_false s i).1 (ho.marked h), (hf.marked h).2.2⟩,
        fun c hc => ?_, fun c hc hg => ⟨hf.claimed c hc hg, ?_⟩, fun c hc hg => ?_⟩
      · by_contra hm
        rw [(hf.marked hm).2.1] at hc
        cases hc
      · obtain ⟨p, l, e, he, hi, hord⟩ := ho.granted c hc hg
        exact ⟨e, he, hi, by rw [hord]; rfl⟩
      · exact ⟨(inFlight_iff s i).1 (hw c hc hg).1, (hw c hc hg).2⟩
    · obtain ⟨r, hr, hf, -⟩ := orbited ((names_iff _ _).2 (.inr h))
      exact ⟨r, hr, (hf.parked o).1 h⟩
    · obtain ⟨r, hr, hf, ho, -⟩ := orbited ((names_iff _ _).2 (.inl h))
      exact ⟨r, hr, ho.reserved o h, hf.reserved o h⟩
    · obtain ⟨r, hr, hf, -⟩ := orbited h
      exact hf.once o o' h h'
    · obtain ⟨r, hr, hf, -⟩ := live fun hu => hu.camp e.ext ⟨e, he, rfl, hi⟩
      exact ⟨r, hr, (hf.camped e.ext).1 ⟨e, he, rfl, hi⟩⟩

theorem holdersOk_of_but {s : State} {i : Slot} (h : HoldBut i s) (hi : SlotOk s i) : s.holdersOk :=
  (holdersOk_iff s).2 ⟨fun j => if hj : j = i then hj ▸ hi else h.slots j hj, h.camp, h.voice⟩

theorem slotOk_of_holders {s : State} (h : s.holdersOk) (i : Slot) : SlotOk s i := ((holdersOk_iff s).1 h).1 i

theorem but_of_holders {s : State} (h : s.holdersOk) (i : Slot) : HoldBut i s :=
  ⟨fun j _ => slotOk_of_holders h j, ((holdersOk_iff s).1 h).2.1, ((holdersOk_iff s).1 h).2.2⟩

/-! ### Two states that look the same from a slot -/

/-- A slot, what refers to it and its orders are the same in two states. -/
structure SameFor (j : Slot) (s t : State) : Prop where
  slot : t.slot j = s.slot j
  loops : ∀ p l, t.loop p l = s.loop p l ∨ ((s.loop p l).slot? ≠ some j ∧ (t.loop p l).slot? ≠ some j)
  orbits : ∀ o, t.orbit o = s.orbit o ∨ ((s.orbit o).names j = false ∧ (t.orbit o).names j = false)
  camp : ∀ ext, t.campsOn j ext ↔ s.campsOn j ext
  orders : ∀ o, t.ordered j o ↔ s.ordered j o

namespace SameFor
variable {j : Slot} {s t u : State}

theorem refl (j : Slot) (s : State) : SameFor j s s :=
  ⟨rfl, fun _ _ => .inl rfl, fun _ => .inl rfl, fun _ => Iff.rfl, fun _ => Iff.rfl⟩

theorem trans (h : SameFor j s t) (h' : SameFor j t u) : SameFor j s u := by
  refine ⟨h'.slot.trans h.slot, fun p l => ?_, fun o => ?_, fun ext => (h'.camp ext).trans (h.camp ext),
    fun o => (h'.orders o).trans (h.orders o)⟩
  · rcases h.loops p l with h1 | ⟨h1, h2⟩ <;> rcases h'.loops p l with h3 | ⟨h3, h4⟩
    · exact .inl (h3.trans h1)
    · exact .inr ⟨h1 ▸ h3, h4⟩
    · exact .inr ⟨h1, h3 ▸ h2⟩
    · exact .inr ⟨h1, h4⟩
  · rcases h.orbits o with h1 | ⟨h1, h2⟩ <;> rcases h'.orbits o with h3 | ⟨h3, h4⟩
    · exact .inl (h3.trans h1)
    · exact .inr ⟨h1 ▸ h3, h4⟩
    · exact .inr ⟨h1, h3 ▸ h2⟩
    · exact .inr ⟨h1, h4⟩

theorem inFlight (h : SameFor j s t) : t.inFlight j = s.inFlight j := by
  rw [Bool.eq_iff_iff, inFlight_iff_ordered, inFlight_iff_ordered]
  exact exists_congr h.orders

/-- A property of loops that only a loop of the slot has. -/
theorem loop_iff (h : SameFor j s t) {P : LoopState → Prop} (hP : ∀ x, P x → x.slot? = some j) (p : Pos) (l : LoopNo) :
    P (t.loop p l) ↔ P (s.loop p l) := by
  rcases h.loops p l with h1 | ⟨h1, h2⟩
  · rw [h1]
  · exact iff_of_false (fun hp => h2 (hP _ hp)) fun hp => h1 (hP _ hp)

/-- A property of orbits that only an orbit of the slot has. -/
theorem orbit_iff (h : SameFor j s t) {P : Orbit → Prop} (hP : ∀ x, P x → x.names j = true) (o : OrbitNo) :
    P (t.orbit o) ↔ P (s.orbit o) := by
  rcases h.orbits o with h1 | ⟨h1, h2⟩
  · rw [h1]
  · exact iff_of_false (fun hp => by simp [hP _ hp] at h2) fun hp => by simp [hP _ hp] at h1

theorem reserved_iff (h : SameFor j s t) (o : OrbitNo) : t.orbit o = .reserved j ↔ s.orbit o = .reserved j :=
  h.orbit_iff (P := fun x => x = .reserved j) (fun _ hx => (names_iff _ _).2 (.inl hx)) o

theorem fits (h : SameFor j s t) {r : Record} (hf : Fits s j r) : Fits t j r where
  alerting p l := (h.loop_iff (P := fun x => x = .alerting j) (fun _ hx => (slot?_eq_some _ _).2 (.inl hx)) p l).trans
    (hf.alerting p l)
  connecting p l := (h.loop_iff (P := fun x => x = .connecting j) (fun _ hx => (slot?_eq_some _ _).2 (.inr (.inl hx))) p l).trans
    (hf.connecting p l)
  held p l := (h.loop_iff (P := fun x => x.held? = some j) (fun _ hx => (slot?_eq_some _ _).2 (.inr (.inr hx))) p l).trans
    (hf.held p l)
  parked o := (h.orbit_iff (P := fun x => x = .occupied j) (fun _ hx => (names_iff _ _).2 (.inr hx)) o).trans (hf.parked o)
  camped ext := (h.camp ext).trans (hf.camped ext)
  rescued m o hl ho := (h.reserved_iff o).2 (hf.rescued m o hl ho)
  reserved o ho := (hf.reserved o ((h.reserved_iff o).1 ho)).imp_left fun ⟨p, l, hl, ht⟩ =>
    ⟨p, l, hl, (h.loop_iff (P := fun x => x = .talk j) (fun x hx => by subst hx; rfl) p l).2 ht⟩
  once o o' ho ho' :=
    hf.once o o' ((h.orbit_iff (P := fun x => x.names j = true) (fun _ hx => hx) o).1 ho)
      ((h.orbit_iff (P := fun x => x.names j = true) (fun _ hx => hx) o').1 ho')
  marked := hf.marked
  claimed := hf.claimed

theorem slotOk (h : SameFor j s t) (hs : SlotOk s j) : SlotOk t j where
  live r hr := by
    rw [h.slot] at hr
    obtain ⟨hf, ho, hw⟩ := hs.live r hr
    refine ⟨h.fits hf, ⟨fun hm => h.inFlight.trans (ho.marked hm), fun c hc hg => ?_, fun o hres => ?_⟩, fun c hc hg => ?_⟩
    · obtain ⟨p, l, hpl⟩ := ho.granted c hc hg
      exact ⟨p, l, (h.orders _).2 hpl⟩
    · exact (h.orders _).2 (ho.reserved o ((h.reserved_iff o).1 hres))
    · obtain ⟨h1, h2⟩ := hw c hc hg
      exact ⟨h.inFlight.trans h1, h2.imp_right fun ⟨o, ho⟩ => ⟨o, (h.reserved_iff o).2 ho⟩⟩
  other hn := by
    rw [h.slot] at hn
    have hu := hs.other hn
    refine ⟨fun p l hl => ?_, fun o => ?_, fun ext hc => hu.camp ext ((h.camp ext).1 hc)⟩
    · exact hu.loops p l ((h.loop_iff (P := fun x => x.slot? = some j) (fun _ hx => hx) p l).1 hl)
    · rw [Bool.eq_false_iff]
      intro ho
      have := (h.orbit_iff (P := fun x => x.names j = true) (fun _ hx => hx) o).1 ho
      rw [hu.orbits o] at this
      cases this

end SameFor

/-- Work at one slot: every other slot looks the same. -/
def Touch (i : Slot) (s t : State) : Prop := ∀ j, j ≠ i → SameFor j s t

theorem Touch.refl (i : Slot) (s : State) : Touch i s s := fun j _ => .refl j s

theorem Touch.trans {i : Slot} {s t u : State} (h : Touch i s t) (h' : Touch i t u) : Touch i s u :=
  fun j hj => (h j hj).trans (h' j hj)

/-! ### The voice path (R72) -/

theorem retrieved_iff (s : State) (p : Pos) (l : LoopNo) :
    s.retrieved p l = true ↔ ∃ i, (s.loop p l = .held i ∨ s.loop p l = .recalling i) ∧ ∃ p' l', s.ordered i (.connect p' l') := by
  have hconn (i : Slot) : (s.orders.any fun e => e.slot == i && e.order.isConnect) = true ↔
      ∃ p' l', s.ordered i (.connect p' l') := by
    rw [List.any_eq_true]
    constructor
    · rintro ⟨e, he, h⟩
      simp only [Bool.and_eq_true, beq_iff_eq] at h
      cases ho : e.order with
      | connect p' l' => exact ⟨p', l', e, he, h.1, ho⟩
      | _ => rw [ho] at h; simp [Order.isConnect] at h
    · rintro ⟨p', l', e, he, h1, h2⟩
      exact ⟨e, he, by simp [h1, h2, Order.isConnect]⟩
  unfold State.retrieved
  cases hx : s.loop p l <;> simp [hconn]

theorem holdsVoice_iff (s : State) (p : Pos) (l : LoopNo) :
    s.holdsVoice p l = true ↔ (s.loop p l).onVoicePath = true ∨ s.retrieved p l = true := by
  simp [State.holdsVoice]

theorem holdsVoice_slot {s : State} {p : Pos} {l : LoopNo} (h : s.holdsVoice p l = true) : ∃ i, (s.loop p l).slot? = some i := by
  rw [holdsVoice_iff, retrieved_iff] at h
  rcases h with h | ⟨i, h | h, -⟩
  · cases hx : s.loop p l <;> simp_all [LoopState.onVoicePath, LoopState.slot?]
  · exact ⟨i, by rw [h]; rfl⟩
  · exact ⟨i, by rw [h]; rfl⟩

theorem SameFor.holdsVoice {j : Slot} {s t : State} (h : SameFor j s t) {p : Pos} {l : LoopNo} (hl : (t.loop p l).slot? = some j) :
    t.loop p l = s.loop p l ∧ t.holdsVoice p l = s.holdsVoice p l := by
  have heq : t.loop p l = s.loop p l := (h.loops p l).resolve_right fun hn => hn.2 hl
  refine ⟨heq, ?_⟩
  rw [Bool.eq_iff_iff, holdsVoice_iff, holdsVoice_iff, retrieved_iff, retrieved_iff, heq]
  refine or_congr_right (exists_congr fun i => and_congr_right fun hi => ?_)
  have hij : i = j := by
    rw [heq] at hl
    rcases hi with hi | hi <;> rw [hi] at hl <;> exact Option.some.inj hl
  subst hij
  exact exists_congr fun p' => exists_congr fun l' => h.orders _

/-- Work at one slot, where a loop of the slot holds the voice path or is ALERTING only if it did before. -/
theorem voiceOk_of_touch {i : Slot} {s t : State} (hs : s.voiceOk) (ht : Touch i s t)
    (hv : ∀ p l, (t.loop p l).slot? = some i → t.holdsVoice p l = true → s.holdsVoice p l = true)
    (ha : ∀ p l, t.loop p l = .alerting i → (s.loop p l).isAlerting = true) : t.voiceOk := by
  have voice {p : Pos} {l : LoopNo} (h : t.holdsVoice p l = true) : s.holdsVoice p l = true := by
    obtain ⟨j, hj⟩ := holdsVoice_slot h
    by_cases hji : j = i
    · subst hji; exact hv p l hj h
    · rw [← ((ht j hji).holdsVoice hj).2]; exact h
  have alerting {p : Pos} {l : LoopNo} (h : (t.loop p l).isAlerting = true) : (s.loop p l).isAlerting = true := by
    obtain ⟨j, hj⟩ := (isAlerting_iff _).1 h
    by_cases hji : j = i
    · subst hji; exact ha p l hj
    · rw [← ((ht j hji).holdsVoice (by rw [hj]; rfl)).1]; exact h
  exact fun p l m => ⟨fun h h' => (hs p l m).1 (voice h) (voice h'), fun h h' => (hs p l m).2 (alerting h) (alerting h')⟩

/-- Work at one slot that leaves the camp-on table within its bounds, and no loop of the slot newly on a voice path. -/
theorem HoldBut.touch {i : Slot} {s t : State} (hs : HoldBut i s) (ht : Touch i s t) (hc : CampFits t)
    (hv : ∀ p l, (t.loop p l).slot? = some i → t.holdsVoice p l = true → s.holdsVoice p l = true)
    (ha : ∀ p l, t.loop p l = .alerting i → (s.loop p l).isAlerting = true) : HoldBut i t :=
  ⟨fun j hj => (ht j hj).slotOk (hs.slots j hj), hc, voiceOk_of_touch hs.voice ht hv ha⟩

end Sys2Proof.Machine
end

section
/-! PROOFS. What each operation on the state does to the view from a slot. -/

namespace Sys2Proof.Machine

/-! ### Work that no slot sees -/

/-- Two states with the same records, loops, orbits and camp-on table, and the same orders of the same slots. -/
structure SameHold (s t : State) : Prop where
  slots : t.slots = s.slots
  loops : ∀ p l, t.loop p l = s.loop p l
  orbits : t.orbits = s.orbits
  camp : t.camp = s.camp
  orders : t.orders.map (fun e => (e.slot, e.order)) = s.orders.map fun e => (e.slot, e.order)

theorem ordered_iff_mem (s : State) (i : Slot) (o : Order) :
    s.ordered i o ↔ (i, o) ∈ s.orders.map fun e => (e.slot, e.order) := by
  simp [State.ordered]

/-- The destination of a CAMP order. -/
def Order.campExt? : Order → Option Digits
  | .camp ext => some ext
  | _ => none

theorem campOrders_eq (s : State) : s.campOrders = s.orders.filterMap fun e => e.order.campExt? := by
  unfold State.campOrders
  refine List.filterMap_congr fun e _ => ?_
  cases e.order <;> rfl

theorem campOrders_eq_map (s : State) :
    s.campOrders = (s.orders.map fun e => (e.slot, e.order)).filterMap fun x => x.2.campExt? := by
  rw [campOrders_eq, List.filterMap_map]
  rfl

namespace SameHold
variable {s t u : State}

theorem refl (s : State) : SameHold s s := ⟨rfl, fun _ _ => rfl, rfl, rfl, rfl⟩

theorem trans (h : SameHold s t) (h' : SameHold t u) : SameHold s u :=
  ⟨h'.slots.trans h.slots, fun p l => (h'.loops p l).trans (h.loops p l), h'.orbits.trans h.orbits, h'.camp.trans h.camp,
    h'.orders.trans h.orders⟩

theorem orbit (h : SameHold s t) (o : OrbitNo) : t.orbit o = s.orbit o := by unfold State.orbit; rw [h.orbits]

theorem slot (h : SameHold s t) (i : Slot) : t.slot i = s.slot i := slot_of_slots h.slots i

theorem ordered (h : SameHold s t) (i : Slot) (o : Order) : t.ordered i o ↔ s.ordered i o := by
  rw [ordered_iff_mem, ordered_iff_mem, h.orders]

theorem sameFor (h : SameHold s t) (j : Slot) : SameFor j s t :=
  ⟨h.slot j, fun p l => .inl (h.loops p l), fun o => .inl (h.orbit o), fun ext => by unfold State.campsOn; rw [h.camp],
    h.ordered j⟩

theorem touch (h : SameHold s t) (i : Slot) : Touch i s t := fun j _ => h.sameFor j

theorem campOrders (h : SameHold s t) : t.campOrders = s.campOrders := by rw [campOrders_eq_map, campOrders_eq_map, h.orders]

theorem campFits (h : SameHold s t) (hs : CampFits s) : CampFits t := by
  refine ⟨?_, ?_, ?_, ?_, ?_⟩
  · rw [h.camp]; exact hs.exts
  · rw [h.camp]; exact hs.lists
  · rw [h.camp, h.campOrders]; exact hs.places
  · rw [h.campOrders]; exact hs.asked
  · rw [h.camp, h.campOrders]; exact hs.entries

theorem holdsVoice (h : SameHold s t) (p : Pos) (l : LoopNo) : t.holdsVoice p l = s.holdsVoice p l := by
  rw [Bool.eq_iff_iff, holdsVoice_iff, holdsVoice_iff, retrieved_iff, retrieved_iff, h.loops]
  simp only [h.ordered]

theorem voiceOk (h : SameHold s t) (hs : s.voiceOk) : t.voiceOk := by
  intro p l m
  rw [h.holdsVoice, h.holdsVoice, h.loops, h.loops]
  exact hs p l m

theorem holdBut (h : SameHold s t) {i : Slot} (hs : HoldBut i s) : HoldBut i t :=
  ⟨fun j hj => (h.sameFor j).slotOk (hs.slots j hj), h.campFits hs.camp, h.voiceOk hs.voice⟩

theorem holders (h : SameHold s t) (hs : s.holdersOk) : t.holdersOk := by
  obtain ⟨h1, h2, h3⟩ := (holdersOk_iff s).1 hs
  exact (holdersOk_iff t).2 ⟨fun i => (h.sameFor i).slotOk (h1 i), h.campFits h2, h.voiceOk h3⟩

theorem foldl {α : Type} (f : State → α → State) (hf : ∀ s a, SameHold s (f s a)) (xs : List α) (s : State) :
    SameHold s (xs.foldl f s) := foldl_related refl trans f hf xs s

/-- Work that leaves the fields of the holders. -/
theorem of_fields (hs : t.slots = s.slots) (hp : t.positions = s.positions) (ho : t.orbits = s.orbits) (hc : t.camp = s.camp)
    (hl : t.orders = s.orders) : SameHold s t :=
  ⟨hs, fun p l => by unfold State.loop State.pos; rw [hp], ho, hc, by rw [hl]⟩

end SameHold

theorem sameHold_updPos {s : State} {p : Pos} {f : Position → Position} (hf : (f (s.pos p)).loops = (s.pos p).loops) :
    SameHold s (s.updPos p f) := by
  refine ⟨rfl, fun q m => ?_, rfl, rfl, rfl⟩
  rw [loop_updPos]
  split
  · next h => subst h; rw [hf]; rfl
  · rfl

theorem sameHold_raiseLoop (s : State) (p : Pos) (k : AlertKind) (l : LoopNo) : SameHold s (s.raiseLoop p k l) :=
  sameHold_updPos (by rw [raiseLoop_frame])

theorem sameHold_raiseKind (s : State) (p : Pos) (k : AlertKind) : SameHold s (s.raiseKind p k) :=
  sameHold_updPos (by rw [raiseKind_frame])

theorem sameHold_errorTone (s : State) (p : Pos) : SameHold s (s.errorTone p) := sameHold_updPos (by rw [sound_eq])

theorem sameHold_noteFor (s : State) (p : Pos) (l : LoopNo) (call : Option Slot) (content : List Byte) :
    SameHold s (s.noteFor p l call content) := sameHold_updPos (f := fun q => { q with note := some ⟨s.tagLine call l, content⟩ }) rfl

theorem sameHold_transmit (s : State) (m : XMsg) : SameHold s (s.transmit m) := .of_fields rfl rfl rfl rfl rfl

theorem sameHold_refresh (s : State) : SameHold s s.refresh := by
  obtain ⟨hframe, hpos⟩ := refresh_same s
  refine ⟨by rw [hframe], fun p l => ?_, by rw [hframe], by rw [hframe], by rw [hframe]⟩
  unfold State.loop
  rw [hpos p]

theorem sameHold_sendOrders (s : State) : SameHold s s.sendOrders := by
  obtain ⟨hframe, hcontent, -, -⟩ := sendOrders_more s
  refine ⟨by rw [hframe], fun p l => ?_, by rw [hframe], by rw [hframe], ?_⟩
  · unfold State.loop State.pos; rw [hframe]
  · have := congrArg (List.map fun c : Slot × CallRef × Order × Mark × Fin 4 => (c.1, c.2.2.1)) hcontent
    simpa [List.map_map, Entry.content, Function.comp_def] using this

theorem sameHold_sendOne (s : State) : SameHold s s.sendOne := by
  obtain ⟨hframe, hcontent, -, -⟩ := sendOne_more s
  refine ⟨by rw [hframe], fun p l => ?_, by rw [hframe], by rw [hframe], ?_⟩
  · unfold State.loop State.pos; rw [hframe]
  · have := congrArg (List.map fun c : Slot × CallRef × Order × Mark × Fin 4 => (c.1, c.2.2.1)) hcontent
    simpa [List.map_map, Entry.content, Function.comp_def] using this

theorem sameHold_finishOrders (s : State) : SameHold s s.finishOrders := (sameHold_sendOrders s).trans (sameHold_refresh _)

theorem sameHold_thresholdCheck (s : State) (t : TenantNo) : SameHold s (s.thresholdCheck t) := by
  unfold State.thresholdCheck
  simp only
  split
  · refine .foldl _ (fun u p => ?_) _ s
    split
    · exact sameHold_raiseKind u p _
    · exact .refl u
  · exact .refl s

theorem sameHold_joinTail (s : State) (i : Slot) : SameHold s (s.joinTail i) := by
  unfold State.joinTail
  split
  · exact SameHold.trans (t := { s with queue := s.queue ++ [i] }) (.of_fields rfl rfl rfl rfl rfl) (sameHold_thresholdCheck _ _)
  · exact .refl s

/-- An entry that keeps its slot and its order is the same to every slot. -/
theorem sameHold_updEntry (s : State) (i : Slot) {g : Entry → Entry} (hg : ∀ e, (g e).slot = e.slot ∧ (g e).order = e.order) :
    SameHold s (s.updEntry i g) := by
  refine ⟨rfl, fun _ _ => rfl, rfl, rfl, ?_⟩
  simp only [State.updEntry, List.map_map]
  refine List.map_congr_left fun e _ => ?_
  simp only [Function.comp]
  split
  · rw [(hg e).1, (hg e).2]
  · rfl

/-! ### Work at one slot -/

theorem touch_setSlot (s : State) (i : Slot) (x : SlotState) : Touch i s (s.setSlot i x) := fun j hj =>
  ⟨slot_setSlot_ne s i j x (Ne.symm hj), fun _ _ => .inl rfl, fun _ => .inl rfl, fun _ => Iff.rfl, fun _ => Iff.rfl⟩

theorem touch_updRec (s : State) (i : Slot) (f : Record → Record) : Touch i s (s.updRec i f) := by
  rcases updRec_cases s i f with h | ⟨r, -, h⟩ <;> rw [h]
  · exact .refl i s
  · exact touch_setSlot s i _

theorem ordered_append (s : State) (e : Entry) (j : Slot) (o : Order) :
    ({ s with orders := s.orders ++ [e] } : State).ordered j o ↔ s.ordered j o ∨ (e.slot = j ∧ e.order = o) := by
  simp only [State.ordered, List.mem_append, List.mem_singleton]
  constructor
  · rintro ⟨x, hx | rfl, h⟩
    · exact .inl ⟨x, hx, h⟩
    · exact .inr h
  · rintro (⟨x, hx, h⟩ | h)
    · exact ⟨x, .inl hx, h⟩
    · exact ⟨e, .inr rfl, h⟩

theorem touch_append (s : State) (e : Entry) : Touch e.slot s { s with orders := s.orders ++ [e] } := fun j hj =>
  ⟨rfl, fun _ _ => .inl rfl, fun _ => .inl rfl, fun _ => Iff.rfl, fun o => by
    rw [ordered_append]; exact or_iff_left fun h => hj h.1.symm⟩

theorem touch_issue (s : State) (i : Slot) (o : Order) (m : Mark) : Touch i s (s.issue i o m) := by
  rcases issue_cases s i o m with h | ⟨r, -, -, h⟩ <;> rw [h]
  · exact .refl i s
  · exact touch_append s ⟨i, r.ref, o, m, .waiting, 0⟩

theorem ordered_dropEntry (s : State) (i j : Slot) (o : Order) : (s.dropEntry i).ordered j o ↔ s.ordered j o ∧ j ≠ i := by
  unfold State.ordered State.dropEntry
  constructor
  · rintro ⟨e, he, rfl, ho⟩
    obtain ⟨h1, h2⟩ := List.mem_filter.1 he
    exact ⟨⟨e, h1, rfl, ho⟩, by simpa using h2⟩
  · rintro ⟨⟨e, he, rfl, ho⟩, hne⟩
    exact ⟨e, List.mem_filter.2 ⟨he, by simpa using hne⟩, rfl, ho⟩

theorem touch_dropEntry (s : State) (i : Slot) : Touch i s (s.dropEntry i) := fun j hj =>
  ⟨rfl, fun _ _ => .inl rfl, fun _ => .inl rfl, fun _ => Iff.rfl, fun o => by
    rw [ordered_dropEntry]; exact and_iff_left hj⟩

/-- A loop that refers to no other slot takes a state that refers to no other slot. -/
theorem touch_of_loop {s t : State} {i : Slot} {p : Pos} {l : LoopNo} (hslots : t.slots = s.slots) (horbits : t.orbits = s.orbits)
    (hcamp : t.camp = s.camp) (horders : t.orders = s.orders) (hne : ∀ q m, (q, m) ≠ (p, l) → t.loop q m = s.loop q m)
    (hold : ∀ j, (s.loop p l).slot? = some j → j = i) (hnew : ∀ j, (t.loop p l).slot? = some j → j = i) : Touch i s t := by
  intro j hj
  refine ⟨slot_of_slots hslots j, fun q m => ?_, fun o => .inl (by unfold State.orbit; rw [horbits]), fun ext => ?_, fun o => ?_⟩
  · by_cases h : (q, m) = (p, l)
    · cases h; exact .inr ⟨fun h => hj (hold j h), fun h => hj (hnew j h)⟩
    · exact .inl (hne q m h)
  · unfold State.campsOn; rw [hcamp]
  · unfold State.ordered; rw [horders]

theorem touch_updLoop {s : State} {i : Slot} {p : Pos} {l : LoopNo} {x : LoopState} {f : Position → Position}
    (hf : (f (s.pos p)).loops = ((s.pos p).setLoop l x).loops) (hold : ∀ j, (s.loop p l).slot? = some j → j = i)
    (hnew : ∀ j, x.slot? = some j → j = i) : Touch i s (s.updPos p f) := by
  refine touch_of_loop (p := p) (l := l) rfl rfl rfl rfl (fun q m h => ?_) hold ?_
  · rw [loop_updPos_of hf, if_neg h]
  · rw [loop_updPos_of hf, if_pos rfl]; exact hnew

theorem touch_setLoop {s : State} {i : Slot} {p : Pos} {l : LoopNo} {x : LoopState}
    (hold : ∀ j, (s.loop p l).slot? = some j → j = i) (hnew : ∀ j, x.slot? = some j → j = i) : Touch i s (s.setLoop p l x) :=
  touch_updLoop rfl hold hnew

theorem touch_loopIdle {s : State} {i : Slot} {p : Pos} {l : LoopNo} (hold : ∀ j, (s.loop p l).slot? = some j → j = i) :
    Touch i s (s.loopIdle p l) := touch_updLoop (x := .idle) rfl hold (fun _ h => by simp [LoopState.slot?] at h)

theorem touch_loopConnecting {s : State} {i : Slot} {p : Pos} {l : LoopNo} (hold : ∀ j, (s.loop p l).slot? = some j → j = i) :
    Touch i s (s.loopConnecting p l i) :=
  touch_updLoop (x := .connecting i) rfl hold (fun _ h => by simpa [LoopState.slot?, eq_comm] using h)

theorem touch_of_orbits {s t : State} {i : Slot} (hslots : t.slots = s.slots) (hpos : t.positions = s.positions)
    (hcamp : t.camp = s.camp) (horders : t.orders = s.orders)
    (horbit : ∀ o, t.orbit o = s.orbit o ∨ ∀ j, j ≠ i → (s.orbit o).names j = false ∧ (t.orbit o).names j = false) : Touch i s t := by
  intro j hj
  refine ⟨slot_of_slots hslots j, fun q m => .inl (by unfold State.loop State.pos; rw [hpos]),
    fun o => (horbit o).imp_right fun h => h j hj, fun ext => ?_, fun o => ?_⟩
  · unfold State.campsOn; rw [hcamp]
  · unfold State.ordered; rw [horders]

/-- An orbit names one slot at most. -/
theorem names_unique {x : Orbit} {i j : Slot} (h : x.names i = true) (h' : x.names j = true) : i = j := by
  rw [names_iff] at h h'
  rcases h with rfl | rfl <;> rcases h' with h' | h' <;> cases h' <;> rfl

theorem touch_setOrbit {s : State} {i : Slot} {o : OrbitNo} {x : Orbit} (hold : s.orbit o = .empty ∨ (s.orbit o).names i = true)
    (hnew : x = .empty ∨ x.names i = true) : Touch i s (s.setOrbit o x) := by
  have other {y : Orbit} (hy : y = .empty ∨ y.names i = true) (j : Slot) (hj : j ≠ i) : y.names j = false := by
    rw [Bool.eq_false_iff]
    intro h
    rcases hy with rfl | hy
    · simp [Orbit.names] at h
    · exact hj (names_unique h hy)
  refine touch_of_orbits rfl rfl rfl rfl fun u => ?_
  rw [orbit_setOrbit]
  split
  · next h => subst h; exact .inr fun j hj => ⟨other hold j hj, other hnew j hj⟩
  · exact .inl rfl

theorem touch_freeOrbits (s : State) (i : Slot) : Touch i s (s.freeOrbits i) := by
  refine touch_of_orbits rfl rfl rfl rfl fun o => ?_
  rw [orbit_freeOrbits]
  split
  · next h =>
    refine .inr fun j hj => ⟨?_, rfl⟩
    rw [Bool.eq_false_iff]
    exact fun h' => hj (names_unique h' h)
  · exact .inl rfl

theorem mem_campWithout {camp : List CampEntry} {i : Slot} {e : CampEntry} :
    e ∈ campWithout camp i ↔ ∃ e0 ∈ camp, e = { e0 with calls := e0.calls.filter fun j => j != i } ∧ e.calls ≠ [] := by
  unfold campWithout
  rw [List.mem_filter, List.mem_map]
  simp only [Bool.not_eq_true', List.isEmpty_eq_false_iff]
  constructor
  · rintro ⟨⟨e0, h0, rfl⟩, hne⟩; exact ⟨e0, h0, rfl, hne⟩
  · rintro ⟨e0, h0, rfl, hne⟩; exact ⟨⟨e0, h0, rfl⟩, hne⟩

theorem campsOn_without (s : State) (i j : Slot) (ext : Digits) :
    ({ s with camp := campWithout s.camp i } : State).campsOn j ext ↔ s.campsOn j ext ∧ j ≠ i := by
  unfold State.campsOn
  constructor
  · rintro ⟨e, he, rfl, hj⟩
    obtain ⟨e0, h0, rfl, -⟩ := mem_campWithout.1 he
    obtain ⟨h1, h2⟩ := List.mem_filter.1 hj
    exact ⟨⟨e0, h0, rfl, h1⟩, by simpa using h2⟩
  · rintro ⟨⟨e0, h0, rfl, hj⟩, hne⟩
    have hmem : j ∈ e0.calls.filter fun x => x != i := List.mem_filter.2 ⟨hj, by simpa using hne⟩
    exact ⟨_, mem_campWithout.2 ⟨e0, h0, rfl, List.ne_nil_of_mem hmem⟩, rfl, hmem⟩

theorem campsOn_with (s : State) (ext : Digits) (i j : Slot) (x : Digits) :
    ({ s with camp := campWith s.camp ext i } : State).campsOn j x ↔ s.campsOn j x ∨ (j = i ∧ x = ext) := by
  unfold State.campsOn campWith
  simp only
  split
  · next h =>
    obtain ⟨e1, h1, hx1⟩ := List.any_eq_true.1 h
    rw [beq_iff_eq] at hx1
    constructor
    · rintro ⟨e, he, rfl, hj⟩
      obtain ⟨e0, h0, rfl⟩ := List.mem_map.1 he
      by_cases hx : e0.ext = ext
      · rw [if_pos hx] at hj ⊢
        rcases List.mem_append.1 hj with hj | hj
        · exact .inl ⟨e0, h0, rfl, hj⟩
        · exact .inr ⟨List.mem_singleton.1 hj, hx⟩
      · rw [if_neg hx] at hj ⊢
        exact .inl ⟨e0, h0, rfl, hj⟩
    · rintro (⟨e0, h0, rfl, hj⟩ | ⟨rfl, rfl⟩)
      · refine ⟨_, List.mem_map.2 ⟨e0, h0, rfl⟩, ?_, ?_⟩
        · split <;> rfl
        · split
          · exact List.mem_append_left _ hj
          · exact hj
      · exact ⟨_, List.mem_map.2 ⟨e1, h1, rfl⟩, by rw [if_pos hx1]; exact hx1, by rw [if_pos hx1]; simp⟩
  · constructor
    · rintro ⟨e, he, rfl, hj⟩
      rcases List.mem_append.1 he with he | he
      · exact .inl ⟨e, he, rfl, hj⟩
      · rw [List.mem_singleton.1 he] at hj ⊢
        exact .inr ⟨List.mem_singleton.1 hj, rfl⟩
    · rintro (⟨e0, h0, rfl, hj⟩ | ⟨rfl, rfl⟩)
      · exact ⟨e0, List.mem_append_left _ h0, rfl, hj⟩
      · exact ⟨⟨x, [j]⟩, List.mem_append_right _ (List.mem_singleton.2 rfl), rfl, by simp⟩

theorem touch_camp {s : State} {i : Slot} {camp : List CampEntry}
    (h : ∀ j, j ≠ i → ∀ ext, ({ s with camp := camp } : State).campsOn j ext ↔ s.campsOn j ext) : Touch i s { s with camp := camp } :=
  fun j hj => ⟨rfl, fun _ _ => .inl rfl, fun _ => .inl rfl, h j hj, fun _ => Iff.rfl⟩

theorem touch_leaveHolder {s : State} {i : Slot} (h : ∀ r, s.slot i = .live r → Fits s i r) : Touch i s (s.leaveHolder i) := by
  unfold State.leaveHolder
  split
  · next r hr =>
    have hf := h r ((record?_eq_some s i).1 hr)
    split
    · exact (SameHold.of_fields (s := s) (t := { s with queue := s.queue.filter fun j => j != i }) rfl rfl rfl rfl rfl).touch i
    · next p l hl =>
      refine touch_loopIdle fun j hj => ?_
      have hi := (slot?_eq_some _ _).2 (.inr (.inr ((hf.held p l).2 hl)))
      rw [hi] at hj
      exact (Option.some.inj hj).symm
    · exact touch_freeOrbits s i
    · exact touch_camp fun j hj ext => by rw [campsOn_without]; exact and_iff_left hj
    · exact .refl i s
    · exact .refl i s
  · exact .refl i s

end Sys2Proof.Machine
end

section
/-! PROOFS. A call that stands in one holder with no mark, no claim and no reservation, and its way from holder to holder. -/

namespace Sys2Proof.Machine

/-! ### The camp-on table's bounds -/

theorem nodup_eraseDups {α : Type} [BEq α] [LawfulBEq α] : ∀ (n : Nat) (xs : List α), xs.length ≤ n → xs.eraseDups.Nodup
  | _, [], _ => by simp
  | 0, _ :: _, h => by simp at h
  | n + 1, x :: xs, h => by
    rw [List.eraseDups_cons, List.nodup_cons]
    refine ⟨fun hx => ?_, nodup_eraseDups n _ ((List.length_filter_le _ _).trans (by simpa using h))⟩
    simp at hx

theorem length_eraseDups {α : Type} [DecidableEq α] [BEq α] [LawfulBEq α] (xs : List α) : xs.eraseDups.length = xs.toFinset.card := by
  rw [← List.toFinset_card_of_nodup (nodup_eraseDups _ xs le_rfl)]
  congr 1
  ext x
  simp

/-- The extensions that have an entry or a CAMP in the order list (R101). -/
def State.campExts (s : State) : Finset Digits := (s.camp.map CampEntry.ext).toFinset ∪ s.campOrders.toFinset

theorem camp_entries_eq {s : State} (h : (s.camp.map CampEntry.ext).Nodup) :
    s.camp.length + ((s.campOrders.filter fun x => !(s.camp.any fun e => e.ext == x)).eraseDups).length = s.campExts.card := by
  rw [length_eraseDups, ← List.length_map (f := CampEntry.ext), ← List.toFinset_card_of_nodup h,
    ← Finset.card_union_of_disjoint]
  · congr 1
    ext x
    simp only [State.campExts, Finset.mem_union, List.mem_toFinset, List.mem_filter, List.mem_map, Bool.not_eq_true',
      List.any_eq_false, beq_iff_eq]
    constructor
    · rintro (h | ⟨h, -⟩)
      · exact .inl h
      · exact .inr h
    · rintro (h | h)
      · exact .inl h
      · by_cases hx : ∃ a ∈ s.camp, a.ext = x
        · exact .inl hx
        · exact .inr ⟨h, fun e he hex => hx ⟨e, he, hex⟩⟩
  · rw [Finset.disjoint_left]
    intro x h1 h2
    simp only [List.mem_toFinset, List.mem_map, List.mem_filter, Bool.not_eq_true', List.any_eq_false, beq_iff_eq] at h1 h2
    obtain ⟨e, he, hx⟩ := h1
    exact h2.2 e he hx

/-- The calls and the CAMP orders of an extension, each list and the whole table within their places. -/
theorem campFits_of {s t : State} (hs : CampFits s) (exts : (t.camp.map CampEntry.ext).Nodup)
    (lists : ∀ e ∈ t.camp, e.calls ≠ [] ∧ e.calls.Nodup)
    (places : ∀ e ∈ t.camp, e.calls.length + (t.campOrders.filter fun x => x == e.ext).length ≤ 4)
    (asked : ∀ ext, (t.campOrders.filter fun x => x == ext).length ≤ 4) (sub : t.campExts ⊆ s.campExts) : CampFits t :=
  ⟨exts, lists, places, asked, by
    rw [camp_entries_eq exts]
    have h := hs.entries
    rw [camp_entries_eq hs.exts] at h
    exact (Finset.card_le_card sub).trans h⟩

/-- Orders leave, and the table stays. -/
theorem campFits_of_orders {s t : State} (hs : CampFits s) (hc : t.camp = s.camp) (ho : t.campOrders.Sublist s.campOrders) :
    CampFits t := by
  have hcount (ext : Digits) : (t.campOrders.filter fun x => x == ext).length ≤ (s.campOrders.filter fun x => x == ext).length :=
    (ho.filter _).length_le
  refine campFits_of hs ?_ ?_ (fun e he => ?_) (fun ext => (hcount ext).trans (hs.asked ext)) ?_
  · rw [hc]; exact hs.exts
  · rw [hc]; exact hs.lists
  · rw [hc] at he
    exact (Nat.add_le_add_left (hcount _) _).trans (hs.places e he)
  · unfold State.campExts
    rw [hc]
    exact Finset.union_subset_union_right fun x hx => List.mem_toFinset.2 (ho.subset (List.mem_toFinset.1 hx))

theorem campFits_same {s t : State} (hc : t.camp = s.camp) (ho : t.orders = s.orders) (hs : CampFits s) : CampFits t :=
  campFits_of_orders hs hc (by unfold State.campOrders; rw [ho])

theorem campOrders_append (s : State) (e : Entry) :
    ({ s with orders := s.orders ++ [e] } : State).campOrders = s.campOrders ++ e.order.campExt?.toList := by
  rw [campOrders_eq, campOrders_eq, List.filterMap_append]
  cases h : e.order.campExt? <;> simp [h]

theorem campOrders_issue {s : State} {i : Slot} {o : Order} {m : Mark} (ho : o.campExt? = none) :
    (s.issue i o m).campOrders = s.campOrders := by
  rcases issue_cases s i o m with h | ⟨r, -, -, h⟩ <;> rw [h]
  rw [campOrders_append]
  simp [ho]

theorem campFits_issue {s : State} {i : Slot} {o : Order} {m : Mark} (ho : o.campExt? = none) (hs : CampFits s) :
    CampFits (s.issue i o m) :=
  campFits_of_orders hs (by rw [issue_frame]) (by rw [campOrders_issue ho])

theorem campFits_without {s : State} (i : Slot) (hs : CampFits s) : CampFits { s with camp := campWithout s.camp i } := by
  have hsub : ((campWithout s.camp i).map CampEntry.ext).Sublist (s.camp.map CampEntry.ext) := by
    have : (s.camp.map CampEntry.ext) =
        (s.camp.map fun e => { e with calls := e.calls.filter fun j => j != i }).map CampEntry.ext := by
      simp [List.map_map, Function.comp_def]
    rw [this]
    exact List.filter_sublist.map _
  refine campFits_of hs (hs.exts.sublist hsub) (fun e he => ?_) (fun e he => ?_) hs.asked ?_
  · obtain ⟨e0, h0, rfl, hne⟩ := mem_campWithout.1 he
    exact ⟨hne, (hs.lists e0 h0).2.filter _⟩
  · obtain ⟨e0, h0, rfl, hne⟩ := mem_campWithout.1 he
    exact (Nat.add_le_add_right (List.length_filter_le _ _) _).trans (hs.places e0 h0)
  · exact Finset.union_subset_union_left fun x hx => List.mem_toFinset.2 (hsub.subset (List.mem_toFinset.1 hx))

theorem campFits_leaveHolder {s : State} (i : Slot) (hs : CampFits s) : CampFits (s.leaveHolder i) := by
  unfold State.leaveHolder
  split
  · split
    · exact campFits_same (s := s) rfl rfl hs
    · exact campFits_same (s := s) rfl rfl hs
    · exact campFits_same (s := s) rfl rfl hs
    · exact campFits_without i hs
    · exact hs
    · exact hs
  · exact hs

/-! ### Sound but for one slot -/

theorem alerting_slot? {s : State} {p : Pos} {l : LoopNo} {i : Slot} (h : s.loop p l = .alerting i) :
    (s.loop p l).isAlerting = true := by rw [h]; rfl

/-- Work at one slot that leaves every loop and order as it is. -/
theorem HoldBut.still {i : Slot} {s t : State} (hs : HoldBut i s) (ht : Touch i s t) (hc : CampFits t)
    (hl : ∀ p l, t.loop p l = s.loop p l) (ho : t.orders = s.orders) : HoldBut i t := by
  refine hs.touch ht hc (fun p l _ hv => ?_) fun p l h => alerting_slot? ((hl p l).symm.trans h)
  rw [holdsVoice_iff, retrieved_iff, hl] at hv
  rw [holdsVoice_iff, retrieved_iff]
  simpa only [State.ordered, ho] using hv

theorem HoldBut.setSlot {i : Slot} {s : State} (hs : HoldBut i s) (x : SlotState) : HoldBut i (s.setSlot i x) :=
  hs.still (touch_setSlot s i x) (campFits_same (s := s) rfl rfl hs.camp) (fun _ _ => rfl) rfl

theorem HoldBut.updRec {i : Slot} {s : State} (hs : HoldBut i s) (f : Record → Record) : HoldBut i (s.updRec i f) := by
  rcases updRec_cases s i f with h | ⟨r, -, h⟩ <;> rw [h]
  · exact hs
  · exact hs.setSlot _

/-- A loop no longer on the voice path, or on it as before. -/
theorem HoldBut.loopChanged {i : Slot} {s t : State} (hs : HoldBut i s) (ht : Touch i s t) (hc : t.camp = s.camp)
    (ho : t.orders = s.orders) (p : Pos) (l : LoopNo) (hne : ∀ q m, (q, m) ≠ (p, l) → t.loop q m = s.loop q m)
    (hv : t.holdsVoice p l = true → s.holdsVoice p l = true)
    (ha : (t.loop p l).isAlerting = true → (s.loop p l).isAlerting = true) : HoldBut i t := by
  refine hs.touch ht (campFits_same hc ho hs.camp) (fun q m _ h => ?_) fun q m h => ?_
  · by_cases hqm : (q, m) = (p, l)
    · cases hqm; exact hv h
    · rw [holdsVoice_iff, retrieved_iff, hne q m hqm] at h
      rw [holdsVoice_iff, retrieved_iff]
      simpa only [State.ordered, ho] using h
  · by_cases hqm : (q, m) = (p, l)
    · cases hqm; exact ha (alerting_slot? h)
    · exact alerting_slot? ((hne q m hqm).symm.trans h)

theorem HoldBut.loopIdle {i : Slot} {s : State} {p : Pos} {l : LoopNo} (hs : HoldBut i s)
    (hold : ∀ j, (s.loop p l).slot? = some j → j = i) : HoldBut i (s.loopIdle p l) := by
  refine hs.loopChanged (touch_loopIdle hold) rfl rfl p l (fun q m h => by rw [loop_after_loopIdle, if_neg h]) (fun h => ?_) fun h => ?_
  · obtain ⟨j, hj⟩ := holdsVoice_slot h
    simp [LoopState.slot?] at hj
  · simp [LoopState.isAlerting] at h

theorem HoldBut.setLoop {i : Slot} {s : State} {p : Pos} {l : LoopNo} {x : LoopState} (hs : HoldBut i s)
    (hold : ∀ j, (s.loop p l).slot? = some j → j = i) (hx : x.held? = some i)
    (hv : (s.setLoop p l x).holdsVoice p l = true → s.holdsVoice p l = true) : HoldBut i (s.setLoop p l x) := by
  refine hs.loopChanged (touch_setLoop hold fun j hj => ?_) rfl rfl p l (fun q m h => by rw [loop_after_setLoop, if_neg h]) hv fun h => ?_
  · have := (slot?_eq_some x i).2 (.inr (.inr hx))
    rw [this] at hj
    exact (Option.some.inj hj).symm
  · obtain ⟨j, hj⟩ := (isAlerting_iff _).1 h
    simp only [loop_after_setLoop, if_true] at hj
    subst hj
    simp [LoopState.held?] at hx

theorem HoldBut.leaveHolder {i : Slot} {s : State} (hs : HoldBut i s) (hf : ∀ r, s.slot i = .live r → Fits s i r) :
    HoldBut i (s.leaveHolder i) := by
  have ht := touch_leaveHolder hf
  have hc := campFits_leaveHolder i hs.camp
  unfold State.leaveHolder at ht hc ⊢
  split
  · next r hr =>
    simp only [hr] at ht hc
    split
    · next hl => simp only [hl] at ht hc; exact hs.still ht hc (fun _ _ => rfl) rfl
    · next p l hl =>
      have hheld := ((hf r ((record?_eq_some s i).1 hr)).held p l).2 hl
      refine hs.loopIdle fun j hj => ?_
      rw [(slot?_eq_some _ _).2 (.inr (.inr hheld))] at hj
      exact (Option.some.inj hj).symm
    · next hl => simp only [hl] at ht hc; exact hs.still ht hc (fun _ _ => rfl) rfl
    · next hl => simp only [hl] at ht hc; exact hs.still ht hc (fun _ _ => rfl) rfl
    · exact hs
    · exact hs
  · exact hs

/-- An order other than CAMP is issued: no loop of the slot gets onto the voice path, or the loops of the slot are not ones that a
CONNECT retrieves. -/
theorem HoldBut.issue {i : Slot} {s : State} {o : Order} {m : Mark} (hs : HoldBut i s) (hcamp : o.campExt? = none)
    (hconn : o.isConnect = true → ∀ p l, s.loop p l ≠ .held i ∧ s.loop p l ≠ .recalling i) : HoldBut i (s.issue i o m) := by
  have hl (p : Pos) (l : LoopNo) : (s.issue i o m).loop p l = s.loop p l := by rw [issue_frame]; rfl
  refine hs.touch (touch_issue s i o m) (campFits_issue hcamp hs.camp) (fun p l hsl hv => ?_)
    fun p l h => alerting_slot? ((hl p l).symm.trans h)
  rw [holdsVoice_iff, retrieved_iff, hl] at hv
  rw [holdsVoice_iff, retrieved_iff]
  refine hv.imp_right fun ⟨j, hj, p', l', hord⟩ => ⟨j, hj, p', l', ?_⟩
  rcases issue_cases s i o m with h | ⟨r, -, -, h⟩ <;> rw [h] at hord
  · exact hord
  · rw [ordered_append] at hord
    refine hord.resolve_right ?_
    rintro ⟨rfl, rfl⟩
    rcases hj with hj | hj
    · exact (hconn rfl p l).1 hj
    · exact (hconn rfl p l).2 hj

theorem HoldBut.dropEntry {i : Slot} {s : State} (hs : HoldBut i s) : HoldBut i (s.dropEntry i) := by
  have hcamp : (s.dropEntry i).campOrders.Sublist s.campOrders := by
    rw [campOrders_eq, campOrders_eq]
    exact List.filter_sublist.filterMap _
  refine hs.touch (touch_dropEntry s i) (campFits_of_orders hs.camp rfl hcamp) (fun p l _ hv => ?_) fun p l h => alerting_slot? h
  rw [holdsVoice_iff, retrieved_iff] at hv ⊢
  exact hv.imp_right fun ⟨j, hj, p', l', h⟩ => ⟨j, hj, p', l', ((ordered_dropEntry s i j _).1 h).1⟩

/-! ### A call in one holder -/

/-- A record with no offer mark and no claim, and no orbit reserved for it. -/
structure Plain (s : State) (i : Slot) (r : Record) : Prop where
  mark : r.mark = none
  claim : r.claim = none
  orbit : ∀ o, s.orbit o ≠ .reserved i

theorem Plain.ordersFit {s : State} {i : Slot} {r : Record} (h : Plain s i r) : OrdersFit s i r ∧ WaitFits s i r :=
  ⟨⟨fun hm => absurd h.mark hm, fun c hc => by rw [h.claim] at hc; (cases hc), fun o ho => absurd ho (h.orbit o)⟩,
    fun c hc => by rw [h.claim] at hc; cases hc⟩

/-- Every other slot is sound, and the call of this one stands in its holder and is in no other dealing. -/
structure Carried (i : Slot) (s : State) (r : Record) : Prop where
  but : HoldBut i s
  live : s.slot i = .live r
  fits : Fits s i r
  plain : Plain s i r

/-- Every other slot is sound, and the call of this one is in no holder. -/
structure Loose (i : Slot) (s : State) (r : Record) : Prop where
  but : HoldBut i s
  live : s.slot i = .live r
  free : Unheld s i

theorem Carried.slotOk {i : Slot} {s : State} {r : Record} (h : Carried i s r) : SlotOk s i where
  live r' hr' := by
    rw [h.live] at hr'; cases hr'
    exact ⟨h.fits, h.plain.ordersFit⟩
  other hn := absurd h.live (hn r)

theorem Carried.holders {i : Slot} {s : State} {r : Record} (h : Carried i s r) : s.holdersOk :=
  holdersOk_of_but h.but h.slotOk

/-- A call with no order in flight and no offer mark is in no dealing but its holder's. -/
theorem carried_of_settled {i : Slot} {s : State} {r : Record} (hs : s.holdersOk) (live : s.slot i = .live r)
    (settled : s.inFlight i = false) (mark : r.mark = none) : Carried i s r := by
  obtain ⟨hf, ho, hw⟩ := (slotOk_of_holders hs i).live r live
  have none (o : Order) : ¬ s.ordered i o := fun h => by
    rw [(inFlight_iff_ordered s i).2 ⟨o, h⟩] at settled; cases settled
  refine ⟨but_of_holders hs i, live, hf, mark, ?_, fun o ho' => none _ (ho.reserved o ho')⟩
  by_contra hc
  obtain ⟨c, hc⟩ := Option.ne_none_iff_exists'.1 hc
  cases hg : c.granted with
  | true => obtain ⟨p, l, h⟩ := ho.granted c hc hg; exact none _ h
  | false => have h := (hw c hc hg).1; rw [settled] at h; cases h

theorem fits_of_same {s t : State} {i : Slot} {r r' : Record} (hf : Fits s i r) (hl : ∀ p l, t.loop p l = s.loop p l)
    (ho : ∀ o, t.orbit o = s.orbit o) (hc : t.camp = s.camp) (hloc : r'.loc = r.loc) (hm : r'.mark = r.mark)
    (hcl : r'.claim = r.claim) (ht : r.mark ≠ none → ∀ x, r'.timer = some x → x.purpose = .offer) : Fits t i r' := by
  have hcamp (ext : Digits) : t.campsOn i ext ↔ s.campsOn i ext := by unfold State.campsOn; rw [hc]
  refine ⟨fun p l => ?_, fun p l => ?_, fun p l => ?_, fun o => ?_, fun ext => ?_, fun m o => ?_, fun o => ?_, fun o o' => ?_,
    fun h => ?_, fun c => ?_⟩
  · rw [hl, hm]; exact hf.alerting p l
  · rw [hl, hcl]; exact hf.connecting p l
  · rw [hl, hloc]; exact hf.held p l
  · rw [ho, hloc]; exact hf.parked o
  · rw [hcamp, hloc]; exact hf.camped ext
  · rw [ho, hloc]; exact hf.rescued m o
  · simp only [ho, hl, hloc]; exact hf.reserved o
  · rw [ho, ho]; exact hf.once o o'
  · rw [hm] at h; rw [hloc, hcl]; exact ⟨(hf.marked h).1, (hf.marked h).2.1, ht h⟩
  · rw [hcl, hloc]; exact hf.claimed c

namespace Carried
variable {i : Slot} {s t : State} {r : Record}

theorem same (h : Carried i s r) (ht : SameHold s t) : Carried i t r :=
  ⟨ht.holdBut h.but, (ht.slot i).trans h.live,
    fits_of_same h.fits ht.loops ht.orbit ht.camp rfl rfl rfl (fun hm => (h.fits.marked hm).2.2),
    h.plain.mark, h.plain.claim, fun o => by rw [ht.orbit]; exact h.plain.orbit o⟩

/-- The record changes and stays in its holder. -/
theorem updRec (h : Carried i s r) (f : Record → Record) (hloc : (f r).loc = r.loc) (hm : (f r).mark = r.mark)
    (hc : (f r).claim = r.claim) : Carried i (s.updRec i f) (f r) := by
  refine ⟨h.but.updRec f, ?_, ?_, hm.trans h.plain.mark, hc.trans h.plain.claim, fun o => ?_⟩
  · rw [updRec_slots_of_live h.live]; exact slot_setSlot_self _ _ _
  · exact fits_of_same h.fits (by simp) (by simp) (by simp) hloc hm hc fun hne => absurd h.plain.mark hne
  · rw [updRec_orbit]; exact h.plain.orbit o

theorem issue (h : Carried i s r) {o : Order} (m : Mark) (hcamp : o.campExt? = none)
    (hconn : o.isConnect = true → ∀ p l, s.loop p l ≠ .held i ∧ s.loop p l ≠ .recalling i) : Carried i (s.issue i o m) r := by
  have hl (p : Pos) (l : LoopNo) : (s.issue i o m).loop p l = s.loop p l := by rw [issue_frame]; rfl
  have hob (u : OrbitNo) : (s.issue i o m).orbit u = s.orbit u := by rw [issue_frame]; rfl
  refine ⟨h.but.issue hcamp hconn, ?_, ?_, h.plain.mark, h.plain.claim, fun u => by rw [hob]; exact h.plain.orbit u⟩
  · rw [slot_of_slots (issue_slots _ _ _ _)]; exact h.live
  · exact fits_of_same h.fits hl hob (by rw [issue_frame]) rfl rfl rfl fun hm => (h.fits.marked hm).2.2

theorem issueOther (h : Carried i s r) {o : Order} (m : Mark) (hcamp : o.campExt? = none) (hconn : o.isConnect = false) :
    Carried i (s.issue i o m) r := h.issue m hcamp fun hc => by rw [hconn] at hc; cases hc

/-- Only its own loop refers to the call. -/
theorem loop_eq (h : Carried i s r) {p : Pos} {l : LoopNo} (hs : (s.loop p l).slot? = some i) : (s.loop p l).held? = some i := by
  rcases (slot?_eq_some _ _).1 hs with h' | h' | h'
  · have := (h.fits.alerting p l).1 h'
    rw [h.plain.mark] at this; cases this
  · obtain ⟨c, hc, -⟩ := (h.fits.connecting p l).1 h'
    rw [h.plain.claim] at hc; cases hc
  · exact h'

theorem orbit_eq (h : Carried i s r) {o : OrbitNo} (hn : (s.orbit o).names i = true) : r.loc = .parked o := by
  rcases (names_iff _ _).1 hn with h' | h'
  · exact absurd h' (h.plain.orbit o)
  · exact (h.fits.parked o).1 h'

theorem leave (h : Carried i s r) : Loose i (s.leaveHolder i) r := by
  refine ⟨h.but.leaveHolder fun r' hr' => ?_, by rw [leaveHolder_slot]; exact h.live, ?_⟩
  · rw [h.live] at hr'; cases hr'; exact h.fits
  have hr := (record?_eq_some s i).2 h.live
  have loops {p : Pos} {l : LoopNo} (hne : r.loc ≠ .loop p l) : (s.loop p l).slot? ≠ some i := fun hs =>
    hne ((h.fits.held p l).1 (h.loop_eq hs))
  have orbits {o : OrbitNo} (hne : r.loc ≠ .parked o) : (s.orbit o).names i = false := by
    rw [Bool.eq_false_iff]; exact fun hn => hne (h.orbit_eq hn)
  have camps {ext : Digits} (hne : r.loc ≠ .camped ext) : ¬ s.campsOn i ext := fun hc => hne ((h.fits.camped ext).1 hc)
  unfold State.leaveHolder
  simp only [hr]
  cases hl : r.loc with
  | queued => exact ⟨fun p l => loops (by simp [hl]), fun o => orbits (by simp [hl]), fun ext => camps (by simp [hl])⟩
  | loop p l =>
    refine ⟨fun q m => ?_, fun o => orbits (by simp [hl]), fun ext => camps (by simp [hl])⟩
    simp only [loop_after_loopIdle]
    split
    · simp [LoopState.slot?]
    · next hqm =>
      refine loops fun h' => hqm ?_
      rw [hl] at h'
      cases h'; rfl
  | parked o =>
    refine ⟨fun q m => loops (by simp [hl]), fun u => ?_, fun ext => camps (by simp [hl])⟩
    simp only [orbit_freeOrbits]
    split
    · rfl
    · next hn => simpa using hn
  | camped ext =>
    refine ⟨fun q m => loops (p := q) (l := m) (by simp [hl]), fun u => orbits (o := u) (by simp [hl]), fun x hx => ?_⟩
    exact ((campsOn_without s i i x).1 hx).2 rfl
  | extended ext => exact ⟨fun p l => loops (by simp [hl]), fun o => orbits (by simp [hl]), fun ext => camps (by simp [hl])⟩
  | rescue m => exact ⟨fun p l => loops (by simp [hl]), fun o => orbits (by simp [hl]), fun ext => camps (by simp [hl])⟩

end Carried

/-- A location with no holder of its own: the queue, the extended set, the rescue set without an orbit. -/
def Location.holderless : Location → Prop
  | .queued => True
  | .extended _ => True
  | .rescue m => m.orbit = none
  | _ => False

namespace Loose
variable {i : Slot} {s t : State} {r : Record}

theorem same (h : Loose i s r) (ht : SameHold s t) : Loose i t r :=
  ⟨ht.holdBut h.but, (ht.slot i).trans h.live,
    ⟨fun p l => by rw [ht.loops]; exact h.free.loops p l, fun o => by rw [ht.orbit]; exact h.free.orbits o,
      fun ext => by unfold State.campsOn; rw [ht.camp]; exact h.free.camp ext⟩⟩

theorem reserved (h : Loose i s r) (o : OrbitNo) : s.orbit o ≠ .reserved i := fun ho => by
  have := h.free.orbits o
  rw [ho] at this
  simp [Orbit.names] at this

/-- The call is put where no loop, orbit or list holds it. -/
theorem put (h : Loose i s r) {r' : Record} (hloc : r'.loc.holderless) (hm : r'.mark = none) (hc : r'.claim = none) :
    Carried i (s.setSlot i (.live r')) r' := by
  have loops (p : Pos) (l : LoopNo) (x : LoopState) (hx : x.slot? = some i) : s.loop p l ≠ x := fun hl =>
    h.free.loops p l (hl ▸ hx)
  refine ⟨h.but.setSlot _, slot_setSlot_self _ _ _, ⟨fun p l => ?_, fun p l => ?_, fun p l => ?_, fun o => ?_, fun ext => ?_,
    fun m o hr ho => ?_, fun o ho => ?_, fun o o' ho => ?_, fun hne => absurd hm hne, fun c hcl => ?_⟩, hm, hc, h.reserved⟩
  · rw [hm]; exact iff_of_false (loops p l _ rfl) (by simp)
  · rw [hc]; exact iff_of_false (loops p l _ rfl) (by simp)
  · refine iff_of_false (fun hh => h.free.loops p l ((slot?_eq_some _ _).2 (.inr (.inr hh)))) fun hl => ?_
    rw [hl] at hloc; exact hloc
  · refine iff_of_false (fun ho => ?_) fun hl => ?_
    · have hn := h.free.orbits o
      rw [show s.orbit o = .occupied i from ho] at hn
      simp [Orbit.names] at hn
    · rw [hl] at hloc; exact hloc
  · refine iff_of_false (h.free.camp ext) fun hl => ?_
    rw [hl] at hloc; exact hloc
  · rw [hr] at hloc
    rw [show m.orbit = none from hloc] at ho; cases ho
  · exact absurd ho (h.reserved o)
  · exact absurd ((h.free.orbits o).symm.trans ho) (by simp)
  · rw [hc] at hcl; cases hcl

theorem putRec (h : Loose i s r) (f : Record → Record) (hloc : (f r).loc.holderless) (hm : (f r).mark = none)
    (hc : (f r).claim = none) : Carried i (s.updRec i f) (f r) := by
  rw [updRec_slots_of_live h.live]
  exact h.put hloc hm hc

end Loose

theorem Carried.nightJoin {i : Slot} {s : State} {r : Record} (h : Carried i s r) : Carried i (s.nightJoin i) r := by
  unfold State.nightJoin State.nightDivert
  split
  · split
    · exact h.issueOther _ rfl rfl
    · exact h
  · exact h

/-- A call in no holder joins the queue (R44). -/
theorem Loose.recall {i : Slot} {s : State} {r : Record} (h : Loose i s r) (why : RecallReason) (owner : Option Pos) :
    ∃ r', Carried i (s.recall i why owner) r' := by
  have hput := h.put (r' := s.recalled r why owner) trivial rfl rfl
  refine ⟨s.recalled r why owner, ?_⟩
  rw [recall_live h.live]
  exact (hput.same (sameHold_joinTail _ i)).nightJoin

/-- A call given up by its holder joins the queue (R44). -/
theorem Carried.recallFrom {i : Slot} {s : State} {r : Record} (h : Carried i s r) (why : RecallReason) (owner : Option Pos) :
    ∃ r', Carried i (s.recallFrom i why owner) r' := h.leave.recall why owner

end Sys2Proof.Machine
end

section
/-! PROOFS. Holders, claims and reservations: what parking, camping, claiming, offering and retiring do to the view from a slot. -/

namespace Sys2Proof.Machine

/-! ### Facts about a record that fits -/

namespace Fits
variable {s : State} {i : Slot} {r : Record}

theorem mark_none (h : Fits s i r) (hl : r.loc ≠ .queued) : r.mark = none := by
  by_contra hm; exact hl (h.marked hm).1

theorem mark_none_of_claim (h : Fits s i r) {c : Claim} (hc : r.claim = some c) : r.mark = none := by
  by_contra hm
  rw [(h.marked hm).2.1] at hc; cases hc

theorem not_queued_of_reserved (h : Fits s i r) {o : OrbitNo} (ho : s.orbit o = .reserved i) :
    r.loc ≠ .queued ∧ (∀ u, r.loc ≠ .parked u) ∧ ∀ ext, r.loc ≠ .camped ext := by
  rcases h.reserved o ho with ⟨p, l, hl, -⟩ | ⟨m, hl, -⟩ <;> simp [hl]

/-- The loops that refer to a slot are those of its record (R16). -/
theorem loop_mem (h : Fits s i r) {p : Pos} {l : LoopNo} : (s.loop p l).slot? = some i ↔ (p, l) ∈ r.loops := by
  rw [slot?_eq_some, h.alerting, h.connecting, h.held]
  unfold Record.loops
  simp only [List.mem_append]
  constructor
  · rintro (hm | ⟨c, hc, rfl, rfl⟩ | hl)
    · exact .inl (.inr (by simp [hm]))
    · exact .inr (by simp [hc])
    · exact .inl (.inl (by simp [hl]))
  · rintro ((hl | hm) | hc)
    · cases hloc : r.loc with
      | loop q m => rw [hloc] at hl; simp only [List.mem_singleton] at hl; cases hl; exact .inr (.inr rfl)
      | _ => rw [hloc] at hl; simp at hl
    · cases hmark : r.mark with
      | none => rw [hmark] at hm; simp at hm
      | some pl => rw [hmark] at hm; simp only [List.mem_singleton] at hm; exact .inl (by rw [hm])
    · cases hclaim : r.claim with
      | none => rw [hclaim] at hc; simp at hc
      | some c => rw [hclaim] at hc; simp only [List.mem_singleton] at hc; cases hc; exact .inr (.inl ⟨c, rfl, rfl, rfl⟩)

theorem only (h : Fits s i r) {p : Pos} {l : LoopNo} (hm : (p, l) ∈ r.loops) (j : Slot) (hj : (s.loop p l).slot? = some j) :
    j = i := by
  rw [h.loop_mem.2 hm] at hj
  exact (Option.some.inj hj).symm

end Fits

theorem only_of_idle {s : State} {p : Pos} {l : LoopNo} (h : s.loop p l = .idle) {i : Slot} (j : Slot)
    (hj : (s.loop p l).slot? = some j) : j = i := by rw [h] at hj; cases hj

theorem only_of_held {s : State} {p : Pos} {l : LoopNo} {i : Slot} (h : (s.loop p l).held? = some i) (j : Slot)
    (hj : (s.loop p l).slot? = some j) : j = i := by
  rw [(slot?_eq_some _ _).2 (.inr (.inr h))] at hj
  exact (Option.some.inj hj).symm

/-! ### The voice path with one loop more -/

/-- Work at one slot that brings one loop onto a free voice path, or to ALERTING at a position with no loop ALERTING. -/
theorem voiceOk_of_new {i : Slot} {s t : State} {p : Pos} {l : LoopNo} (hs : s.voiceOk) (ht : Touch i s t)
    (hv : ∀ q m, (q, m) ≠ (p, l) → (t.loop q m).slot? = some i → t.holdsVoice q m = true → s.holdsVoice q m = true)
    (ha : ∀ q m, (q, m) ≠ (p, l) → t.loop q m = .alerting i → (s.loop q m).isAlerting = true)
    (newVoice : t.holdsVoice p l = true → ∀ m, m ≠ l → s.holdsVoice p m = false)
    (newAlert : (t.loop p l).isAlerting = true → ∀ m, m ≠ l → (s.loop p m).isAlerting = false) : t.voiceOk := by
  have voice {q : Pos} {m : LoopNo} (hne : (q, m) ≠ (p, l)) (h : t.holdsVoice q m = true) : s.holdsVoice q m = true := by
    obtain ⟨j, hj⟩ := holdsVoice_slot h
    by_cases hji : j = i
    · subst hji; exact hv q m hne hj h
    · rw [← ((ht j hji).holdsVoice hj).2]; exact h
  have alerting {q : Pos} {m : LoopNo} (hne : (q, m) ≠ (p, l)) (h : (t.loop q m).isAlerting = true) :
      (s.loop q m).isAlerting = true := by
    obtain ⟨j, hj⟩ := (isAlerting_iff _).1 h
    by_cases hji : j = i
    · subst hji; exact ha q m hne hj
    · rw [← ((ht j hji).holdsVoice (by rw [hj]; rfl)).1]; exact h
  have clash {P Q : LoopNo → Bool} (hold : ∀ q, q ≠ l → P q = true → Q q = true) (hnew : P l = true → ∀ m, m ≠ l → Q m = false)
      (huniq : ∀ a b, Q a = true → Q b = true → a = b) (a b : LoopNo) (h1 : P a = true) (h2 : P b = true) : a = b := by
    by_cases ha : a = l
    · by_cases hb : b = l
      · rw [ha, hb]
      · rw [ha] at h1
        have := hold b hb h2
        rw [hnew h1 b hb] at this; cases this
    · by_cases hb : b = l
      · rw [hb] at h2
        have := hold a ha h1
        rw [hnew h2 a ha] at this; cases this
      · exact huniq a b (hold a ha h1) (hold b hb h2)
  intro q a b
  by_cases hq : q = p
  · subst hq
    have hne {m : LoopNo} (hm : m ≠ l) : (q, m) ≠ (q, l) := fun h => hm (Prod.ext_iff.1 h).2
    exact ⟨clash (P := fun m => t.holdsVoice q m) (Q := fun m => s.holdsVoice q m) (fun m hm => voice (hne hm)) newVoice
        (fun x y => (hs q x y).1) a b,
      clash (P := fun m => (t.loop q m).isAlerting) (Q := fun m => (s.loop q m).isAlerting) (fun m hm => alerting (hne hm)) newAlert
        (fun x y => (hs q x y).2) a b⟩
  · have hne (m : LoopNo) : (q, m) ≠ (p, l) := fun h => hq (Prod.ext_iff.1 h).1
    exact ⟨fun h1 h2 => (hs q a b).1 (voice (hne a) h1) (voice (hne b) h2),
      fun h1 h2 => (hs q a b).2 (alerting (hne a) h1) (alerting (hne b) h2)⟩

/-! ### Orbits and camp-on lists -/

theorem HoldBut.setOrbit {i : Slot} {s : State} {o : OrbitNo} {x : Orbit} (hs : HoldBut i s)
    (hold : s.orbit o = .empty ∨ (s.orbit o).names i = true) (hnew : x = .empty ∨ x.names i = true) :
    HoldBut i (s.setOrbit o x) :=
  hs.still (touch_setOrbit hold hnew) (campFits_same (s := s) rfl rfl hs.camp) (fun _ _ => rfl) rfl

theorem HoldBut.freeOrbits {i : Slot} {s : State} (hs : HoldBut i s) : HoldBut i (s.freeOrbits i) :=
  hs.still (touch_freeOrbits s i) (campFits_same (s := s) rfl rfl hs.camp) (fun _ _ => rfl) rfl

/-- A call in no holder is put into an EMPTY orbit (R112). -/
theorem Loose.occupy {i : Slot} {s : State} {r r' : Record} {o : OrbitNo} (h : Loose i s r) (ho : s.orbit o = .empty)
    (hloc : r'.loc = .parked o) (hm : r'.mark = none) (hc : r'.claim = none) :
    Carried i ((s.setOrbit o (.occupied i)).setSlot i (.live r')) r' := by
  have horbit (u : OrbitNo) : ((s.setOrbit o (.occupied i)).setSlot i (.live r')).orbit u =
      if o = u then .occupied i else s.orbit u := orbit_setOrbit s o u _
  have loops (p : Pos) (l : LoopNo) (x : LoopState) (hx : x.slot? = some i) : s.loop p l ≠ x := fun hl =>
    h.free.loops p l (hl ▸ hx)
  have hres (u : OrbitNo) : ((s.setOrbit o (.occupied i)).setSlot i (.live r')).orbit u ≠ .reserved i := by
    rw [horbit]
    split
    · simp
    · exact h.reserved u
  refine ⟨(h.but.setOrbit (.inl ho) (.inr (by simp [Orbit.names]))).setSlot _, slot_setSlot_self _ _ _,
    ⟨fun p l => ?_, fun p l => ?_, fun p l => ?_, fun u => ?_, fun ext => ?_,
    fun m u hr => ?_, fun u hu => absurd hu (hres u), fun u u' hu hu' => ?_, fun hne => absurd hm hne, fun c hcl => ?_⟩, hm, hc, hres⟩
  · rw [hm]; exact iff_of_false (loops p l _ rfl) (by simp)
  · rw [hc]; exact iff_of_false (loops p l _ rfl) (by simp)
  · rw [hloc]
    exact iff_of_false (fun hh => h.free.loops p l ((slot?_eq_some _ _).2 (.inr (.inr hh)))) (by simp)
  · rw [horbit, hloc]
    split
    · next hu => simp [hu]
    · next hu =>
      refine iff_of_false (fun hou => ?_) fun hl => hu (by cases hl; rfl)
      have hn := h.free.orbits u
      rw [hou] at hn
      simp [Orbit.names] at hn
  · rw [hloc]; exact iff_of_false (h.free.camp ext) (by simp)
  · rw [hloc] at hr; cases hr
  · rw [horbit] at hu hu'
    have only {v : OrbitNo} (hv : (if o = v then Orbit.occupied i else s.orbit v).names i = true) : o = v := by
      by_contra hne
      rw [if_neg hne, h.free.orbits v] at hv
      cases hv
    rw [← only hu, ← only hu']
  · rw [hc] at hcl; cases hcl

/-- There is room on the camp-on table for one call more on an extension's list (R101). -/
structure CampSpare (s : State) (ext : Digits) : Prop where
  fits : CampFits s
  places : ∀ e ∈ s.camp, e.ext = ext → e.calls.length + (s.campOrders.filter fun x => x == ext).length ≤ 3
  asked : (s.campOrders.filter fun x => x == ext).length ≤ 3
  entries : (insert ext s.campExts).card ≤ 16

theorem campFits_with {s : State} {ext : Digits} {i : Slot} (h : CampSpare s ext) (hi : ¬ s.campsOn i ext) :
    CampFits { s with camp := campWith s.camp ext i } := by
  have hin {e : CampEntry} (he : e ∈ campWith s.camp ext i) :
      (∃ e0 ∈ s.camp, e0.ext ≠ ext ∧ e = e0) ∨ (∃ e0 ∈ s.camp, e0.ext = ext ∧ e = { e0 with calls := e0.calls ++ [i] }) ∨
        ((∀ e0 ∈ s.camp, e0.ext ≠ ext) ∧ e = ⟨ext, [i]⟩) := by
    unfold campWith at he
    split at he
    · obtain ⟨e0, h0, rfl⟩ := List.mem_map.1 he
      split
      · next hx => exact .inr (.inl ⟨e0, h0, hx, rfl⟩)
      · next hx => exact .inl ⟨e0, h0, hx, rfl⟩
    · next hany =>
      have hany' : ∀ e0 ∈ s.camp, e0.ext ≠ ext := by simpa using hany
      rcases List.mem_append.1 he with he | he
      · exact .inl ⟨e, he, hany' e he, rfl⟩
      · exact .inr (.inr ⟨hany', List.mem_singleton.1 he⟩)
  have hexts : (campWith s.camp ext i).map CampEntry.ext = s.camp.map CampEntry.ext ∨
      ((∀ e0 ∈ s.camp, e0.ext ≠ ext) ∧ (campWith s.camp ext i).map CampEntry.ext = s.camp.map CampEntry.ext ++ [ext]) := by
    unfold campWith
    split
    · refine .inl ?_
      rw [List.map_map]
      refine List.map_congr_left fun e _ => ?_
      simp only [Function.comp]
      split <;> rfl
    · next hany => exact .inr ⟨by simpa using hany, by simp⟩
  have hnodup : ((campWith s.camp ext i).map CampEntry.ext).Nodup := by
    rcases hexts with h1 | ⟨hnone, h1⟩ <;> rw [h1]
    · exact h.fits.exts
    · rw [List.nodup_append]
      refine ⟨h.fits.exts, by simp, fun a ha b hb => ?_⟩
      rw [List.mem_singleton.1 hb]
      rintro rfl
      obtain ⟨e, he, hx⟩ := List.mem_map.1 ha
      exact hnone e he hx
  refine ⟨hnodup, fun e he => ?_, fun e he => ?_, h.fits.asked, ?_⟩
  · rcases hin he with ⟨e0, h0, -, rfl⟩ | ⟨e0, h0, hx, rfl⟩ | ⟨-, rfl⟩
    · exact h.fits.lists e h0
    · refine ⟨by simp, List.nodup_append.2 ⟨(h.fits.lists e0 h0).2, by simp, fun a ha b hb => ?_⟩⟩
      rw [List.mem_singleton.1 hb]
      rintro rfl
      exact hi ⟨e0, h0, hx, ha⟩
    · simp
  · rcases hin he with ⟨e0, h0, -, rfl⟩ | ⟨e0, h0, hx, rfl⟩ | ⟨-, rfl⟩
    · exact h.fits.places e h0
    · have := h.places e0 h0 hx
      simp only [List.length_append, List.length_singleton, hx]
      exact (by omega : e0.calls.length + 1 + (s.campOrders.filter fun x => x == ext).length ≤ 4)
    · have := h.asked
      exact (by omega : 1 + (s.campOrders.filter fun x => x == ext).length ≤ 4)
  · rw [camp_entries_eq hnodup]
    refine (Finset.card_le_card fun x hx => ?_).trans h.entries
    simp only [State.campExts, Finset.mem_union, List.mem_toFinset, Finset.mem_insert] at hx ⊢
    refine hx.elim (fun hx => ?_) fun hx => .inr (.inr hx)
    rcases hexts with h1 | ⟨-, h1⟩ <;> rw [h1] at hx
    · exact .inr (.inl hx)
    · rcases List.mem_append.1 hx with hx | hx
      · exact .inr (.inl hx)
      · exact .inl (List.mem_singleton.1 hx)

/-- A call in no holder joins the camp-on list of a destination (R116). -/
theorem Loose.camp {i : Slot} {s : State} {r r' : Record} {ext : Digits} (h : Loose i s r) (room : CampSpare s ext)
    (hloc : r'.loc = .camped ext) (hm : r'.mark = none) (hc : r'.claim = none) :
    Carried i (({ s with camp := campWith s.camp ext i } : State).setSlot i (.live r')) r' := by
  have hcamps (j : Slot) (x : Digits) := campsOn_with s ext i j x
  have loops (p : Pos) (l : LoopNo) (x : LoopState) (hx : x.slot? = some i) : s.loop p l ≠ x := fun hl =>
    h.free.loops p l (hl ▸ hx)
  have hbut : HoldBut i { s with camp := campWith s.camp ext i } := by
    refine h.but.still (touch_camp fun j hj x => ?_) (campFits_with room (h.free.camp ext)) (fun _ _ => rfl) rfl
    rw [hcamps]
    exact or_iff_left fun hx => hj hx.1
  refine ⟨hbut.setSlot _, slot_setSlot_self _ _ _, ⟨fun p l => ?_, fun p l => ?_, fun p l => ?_, fun u => ?_, fun x => ?_,
    fun m u hr => ?_, fun u hu => absurd hu (h.reserved u), fun u u' hu => ?_, fun hne => absurd hm hne, fun c hcl => ?_⟩, hm, hc,
    h.reserved⟩
  · rw [hm]; exact iff_of_false (loops p l _ rfl) (by simp)
  · rw [hc]; exact iff_of_false (loops p l _ rfl) (by simp)
  · rw [hloc]
    exact iff_of_false (fun hh => h.free.loops p l ((slot?_eq_some _ _).2 (.inr (.inr hh)))) (by simp)
  · rw [hloc]
    refine iff_of_false (fun hou => ?_) (by simp)
    have hn := h.free.orbits u
    rw [show s.orbit u = .occupied i from hou] at hn
    simp [Orbit.names] at hn
  · rw [hloc]
    refine (hcamps i x).trans ?_
    constructor
    · rintro (hx | ⟨-, rfl⟩)
      · exact absurd hx (h.free.camp x)
      · rfl
    · intro hx; cases hx; exact .inr ⟨rfl, rfl⟩
  · rw [hloc] at hr; cases hr
  · exact absurd ((h.free.orbits u).symm.trans hu) (by simp)
  · rw [hc] at hcl; cases hcl

/-! ### The loop of a call -/

/-- The loop of a call takes another of its states. -/
theorem Carried.setLoop {i : Slot} {s : State} {r : Record} {p : Pos} {l : LoopNo} {x : LoopState} (h : Carried i s r)
    (hl : r.loc = .loop p l) (hx : x.held? = some i) (hv : (s.setLoop p l x).holdsVoice p l = true → s.holdsVoice p l = true) :
    Carried i (s.setLoop p l x) r := by
  have hown := (h.fits.held p l).2 hl
  have hslot := (slot?_eq_some x i).2 (.inr (.inr hx))
  refine ⟨h.but.setLoop (only_of_held hown) hx hv, h.live,
    ⟨fun q m => ?_, fun q m => ?_, fun q m => ?_, h.fits.parked, h.fits.camped, h.fits.rescued, fun o ho => absurd ho (h.plain.orbit o),
    h.fits.once, h.fits.marked, h.fits.claimed⟩, h.plain.mark, h.plain.claim, h.plain.orbit⟩
  · rw [loop_after_setLoop]
    split
    · next hqm =>
      cases hqm
      rw [h.plain.mark]
      exact iff_of_false (fun hc => by rw [hc] at hx; cases hx) (by simp)
    · exact h.fits.alerting q m
  · rw [loop_after_setLoop]
    split
    · next hqm =>
      cases hqm
      rw [h.plain.claim]
      exact iff_of_false (fun hc => by rw [hc] at hx; cases hx) (by simp)
    · exact h.fits.connecting q m
  · rw [loop_after_setLoop]
    split
    · next hqm => cases hqm; exact iff_of_true hx hl
    · exact h.fits.held q m

/-- A loop on the voice path before may be in any state after. -/
theorem holdsVoice_of_path {s : State} {p : Pos} {l : LoopNo} (h : (s.loop p l).onVoicePath = true) : s.holdsVoice p l = true :=
  (holdsVoice_iff s p l).2 (.inl h)

/-! ### Retirement (R15) -/

theorem HoldBut.loopsIdle {i : Slot} (xs : List (Pos × LoopNo)) {s : State} (hs : HoldBut i s)
    (hold : ∀ pl ∈ xs, ∀ j, (s.loop pl.1 pl.2).slot? = some j → j = i) :
    HoldBut i (xs.foldl (fun t pl => t.loopIdle pl.1 pl.2) s) := by
  induction xs generalizing s with
  | nil => exact hs
  | cons x xs ih =>
    refine ih (hs.loopIdle (hold x List.mem_cons_self)) fun pl hpl j hj => ?_
    rw [loop_after_loopIdle] at hj
    split at hj
    · cases hj
    · exact hold pl (List.mem_cons_of_mem _ hpl) j hj

theorem campsOn_leaveHolder {s : State} {i : Slot} {r : Record} (h : s.slot i = .live r) (hf : Fits s i r) (j : Slot) (ext : Digits) :
    (s.leaveHolder i).campsOn j ext ↔ s.campsOn j ext ∧ j ≠ i := by
  have hno (hl : ∀ x, r.loc ≠ .camped x) : s.campsOn j ext ↔ s.campsOn j ext ∧ j ≠ i := by
    refine ⟨fun hc => ⟨hc, ?_⟩, And.left⟩
    rintro rfl
    exact hl ext ((hf.camped ext).1 hc)
  unfold State.leaveHolder
  simp only [(record?_eq_some s i).2 h]
  cases hl : r.loc with
  | camped x => exact campsOn_without s i j ext
  | _ => exact hno (by simp [hl])

/-- A retired record leaves every holder, whatever refers to it (R15, R16). -/
theorem retire_holders {i : Slot} {s : State} {r : Record} (hb : HoldBut i s) (live : s.slot i = .live r) (hf : Fits s i r)
    (gone : Bool) : (s.retire i gone).holdersOk := by
  unfold State.retire
  simp only [(record?_eq_some s i).2 live]
  generalize hn : (if gone = true then
    r.loops.foldl (fun t pl => t.noteFor pl.1 pl.2 (some i) AlertKind.callerGone.text) s else s) = noted
  have hnote : SameHold s noted := by
    subst hn
    split
    · exact .foldl _ (fun t (pl : Pos × LoopNo) => sameHold_noteFor t pl.1 pl.2 _ _) _ s
    · exact .refl s
  have hb1 := hnote.holdBut hb
  have live1 : noted.slot i = .live r := (hnote.slot i).trans live
  have hf1 : Fits noted i r := (hnote.sameFor i).fits hf
  have hb2 : HoldBut i ((noted.leaveHolder i).freeOrbits i) :=
    (hb1.leaveHolder fun r' h' => by rw [live1] at h'; cases h'; exact hf1).freeOrbits
  have hloop2 (q : Pos) (m : LoopNo) : ((noted.leaveHolder i).freeOrbits i).loop q m =
      if r.loc = .loop q m then .idle else noted.loop q m := loop_leaveHolder live1 q m
  generalize hidle : r.loops.foldl (fun t pl => t.loopIdle pl.1 pl.2) ((noted.leaveHolder i).freeOrbits i) = idle
  have hb3 : HoldBut i idle := by
    subst hidle
    refine hb2.loopsIdle _ fun pl hpl j hj => ?_
    rw [hloop2] at hj
    split at hj
    · cases hj
    · exact hf1.only hpl j hj
  have hframe : idle = { (noted.leaveHolder i).freeOrbits i with positions := idle.positions } := by
    subst hidle; exact foldl_loopIdle_frame _ _
  have free3 : Unheld idle i := by
    refine ⟨fun p l hl => ?_, fun o => ?_, fun ext hc => ?_⟩
    · rw [← hidle, loop_foldl_loopIdle] at hl
      split at hl
      · cases hl
      · next hnot =>
        rw [hloop2] at hl
        split at hl
        · cases hl
        · exact hnot (hf1.loop_mem.1 hl)
    · have horb : idle.orbit o = ((noted.leaveHolder i).freeOrbits i).orbit o := by rw [hframe]; rfl
      rw [horb, orbit_freeOrbits]
      split
      · rfl
      · next hnot => simpa using hnot
    · have hcamp : (noted.leaveHolder i).campsOn i ext := by
        have : idle.campsOn i ext ↔ (noted.leaveHolder i).campsOn i ext := by rw [hframe]; rfl
        exact this.1 hc
      exact ((campsOn_leaveHolder live1 hf1 i ext).1 hcamp).2 rfl
  have hfreed : (idle.freeSlot i r.ref).holdersOk := by
    rcases freeSlot_cases idle i r.ref with ⟨e, -, -, h⟩ | ⟨e, -, -, h⟩ | ⟨-, h⟩ <;> rw [h]
    · exact holdersOk_of_but (hb3.setSlot _) ⟨fun r' hr' => by simp at hr', fun _ => ⟨free3.loops, free3.orbits, free3.camp⟩⟩
    · exact holdersOk_of_but (hb3.dropEntry.setSlot _)
        ⟨fun r' hr' => by simp at hr', fun _ => ⟨free3.loops, free3.orbits, free3.camp⟩⟩
    · exact holdersOk_of_but (hb3.setSlot _) ⟨fun r' hr' => by simp at hr', fun _ => ⟨free3.loops, free3.orbits, free3.camp⟩⟩
  split
  · exact (SameHold.foldl _ (fun t (pl : Pos × LoopNo) => sameHold_raiseLoop t pl.1 _ pl.2) _ _).holders hfreed
  · exact hfreed

end Sys2Proof.Machine
end

section
/-! PROOFS. Offers, claims and changes of a record in its holder, in the view from its slot (R19 to R22, R52). -/

namespace Sys2Proof.Machine

/-! ### A call that fits, whatever its orders -/

/-- Every other slot is sound, and what refers to this one fits its record. -/
structure Fitted (i : Slot) (s : State) (r : Record) : Prop where
  but : HoldBut i s
  live : s.slot i = .live r
  fits : Fits s i r

theorem Fitted.holders {i : Slot} {s : State} {r : Record} (h : Fitted i s r) (ho : OrdersFit s i r) (hw : WaitFits s i r) :
    s.holdersOk :=
  holdersOk_of_but h.but ⟨fun r' hr' => by
    rw [h.live] at hr'
    cases hr'
    exact ⟨h.fits, ho, hw⟩, fun hn => absurd h.live (hn r)⟩

theorem Fitted.carried {i : Slot} {s : State} {r : Record} (h : Fitted i s r) (hp : Plain s i r) : Carried i s r :=
  ⟨h.but, h.live, h.fits, hp⟩

theorem Carried.fitted {i : Slot} {s : State} {r : Record} (h : Carried i s r) : Fitted i s r := ⟨h.but, h.live, h.fits⟩

theorem fitted_of_holders {s : State} (hs : s.holdersOk) {i : Slot} {r : Record} (hr : s.slot i = .live r) :
    Fitted i s r ∧ OrdersFit s i r ∧ WaitFits s i r := by
  obtain ⟨hf, ho, hw⟩ := (slotOk_of_holders hs i).live r hr
  exact ⟨⟨but_of_holders hs i, hr, hf⟩, ho, hw⟩

theorem Fitted.same {i : Slot} {s t : State} {r : Record} (h : Fitted i s r) (ht : SameHold s t) : Fitted i t r :=
  ⟨ht.holdBut h.but, (ht.slot i).trans h.live, (ht.sameFor i).fits h.fits⟩

/-- The record changes and stays in its holder, with its mark and its claim. -/
theorem Fitted.setRec {i : Slot} {s : State} {r r' : Record} (h : Fitted i s r) (hloc : r'.loc = r.loc) (hm : r'.mark = r.mark)
    (hc : r'.claim = r.claim) (ht : r.mark ≠ none → ∀ x, r'.timer = some x → x.purpose = .offer) :
    Fitted i (s.setSlot i (.live r')) r' :=
  ⟨h.but.setSlot _, slot_setSlot_self _ _ _, fits_of_same h.fits (fun _ _ => rfl) (fun _ => rfl) rfl hloc hm hc ht⟩

/-- An order other than CAMP and CONNECT is issued, or none. -/
theorem Fitted.issue {i : Slot} {s : State} {r : Record} (h : Fitted i s r) {o : Order} (m : Mark) (hcamp : o.campExt? = none)
    (hconn : o.isConnect = true → ∀ p l, s.loop p l ≠ .held i ∧ s.loop p l ≠ .recalling i) : Fitted i (s.issue i o m) r := by
  refine ⟨h.but.issue hcamp hconn, by rw [slot_of_slots (issue_slots _ _ _ _)]; exact h.live, ?_⟩
  rw [issue_frame]
  exact fits_of_same h.fits (fun _ _ => rfl) (fun _ => rfl) rfl rfl rfl rfl fun hm => (h.fits.marked hm).2.2

theorem ordersFit_of_same {s t : State} {i : Slot} {r r' : Record} (h : OrdersFit s i r) (horders : ∀ o, t.ordered i o ↔ s.ordered i o)
    (horbits : ∀ o, t.orbit o = .reserved i → s.orbit o = .reserved i) (hm : r'.mark = r.mark) (hc : r'.claim = r.claim) :
    OrdersFit t i r' := by
  have hflight : t.inFlight i = s.inFlight i := by
    rw [Bool.eq_iff_iff, inFlight_iff_ordered, inFlight_iff_ordered]
    exact exists_congr horders
  refine ⟨fun hne => hflight.trans (h.marked (hm ▸ hne)), fun c hcl hg => ?_, fun o ho => (horders _).2 (h.reserved o (horbits o ho))⟩
  obtain ⟨p, l, hpl⟩ := h.granted c (hc ▸ hcl) hg
  exact ⟨p, l, (horders _).2 hpl⟩

/-- A record of a sound state changes and stays in its holder, with its mark and its claim. -/
theorem holders_setRec {i : Slot} {s : State} {r r' : Record} (hs : s.holdersOk) (hr : s.slot i = .live r) (hloc : r'.loc = r.loc)
    (hm : r'.mark = r.mark) (hc : r'.claim = r.claim) (ht : r.mark ≠ none → ∀ x, r'.timer = some x → x.purpose = .offer) :
    (s.setSlot i (.live r')).holdersOk := by
  obtain ⟨h, ho, hw⟩ := fitted_of_holders hs hr
  refine (h.setRec hloc hm hc ht).holders (ordersFit_of_same ho (fun _ => Iff.rfl) (fun _ h => h) hm hc) fun c hcl hg => ?_
  obtain ⟨hflight, hplace⟩ := hw c (hc ▸ hcl) hg
  exact ⟨hflight, by rw [hloc]; exact hplace⟩

theorem holders_updRec {i : Slot} {s : State} (hs : s.holdersOk) (f : Record → Record) (hloc : ∀ r, (f r).loc = r.loc)
    (hm : ∀ r, (f r).mark = r.mark) (hc : ∀ r, (f r).claim = r.claim)
    (ht : ∀ r, s.slot i = .live r → r.mark ≠ none → ∀ x, (f r).timer = some x → x.purpose = .offer) : (s.updRec i f).holdersOk := by
  obtain h | ⟨r, hr, h⟩ := updRec_cases s i f <;> rw [h]
  · exact hs
  · exact holders_setRec hs hr (hloc r) (hm r) (hc r) (ht r hr)

/-! ### Marks and claims at one loop -/

/-- A change of the mark or the claim of a call at one loop, that is or becomes IDLE, ALERTING or CONNECTING. -/
theorem Fits.redealt {s t : State} {i : Slot} {r r' : Record} {p : Pos} {l : LoopNo} {x : LoopState} (hf : Fits s i r)
    (hloops : ∀ q m, t.loop q m = if (q, m) = (p, l) then x else s.loop q m) (horbits : ∀ o, t.orbit o = s.orbit o)
    (hcamp : t.camp = s.camp) (hold : (s.loop p l).held? = none) (hx : x.held? = none)
    (oldMark : ∀ q m, r.mark = some (q, m) → (q, m) = (p, l))
    (oldClaim : ∀ c, r.claim = some c → (c.pos, c.loop) = (p, l))
    (hmark : ∀ q m, r'.mark = some (q, m) ↔ x = .alerting i ∧ (q, m) = (p, l))
    (hclaim : ∀ q m, (∃ c, r'.claim = some c ∧ c.pos = q ∧ c.loop = m) ↔ x = .connecting i ∧ (q, m) = (p, l))
    (hloc : r'.loc = r.loc) (marked : r'.mark ≠ none → r.loc = .queued ∧ r'.claim = none ∧ ∀ y, r'.timer = some y → y.purpose = .offer)
    (claimed : ∀ c, r'.claim = some c → c.granted = true → r.loc = .queued ∨ ∃ o, r.loc = .parked o) : Fits t i r' := by
  have hcamps (ext : Digits) : t.campsOn i ext ↔ s.campsOn i ext := by unfold State.campsOn; rw [hcamp]
  refine ⟨fun q m => ?_, fun q m => ?_, fun q m => ?_, fun o => ?_, fun ext => ?_, fun m o => ?_, fun o => ?_, fun o o' => ?_,
    fun h => ?_, fun c => by rw [hloc]; exact claimed c⟩
  · rw [hmark, hloops]
    by_cases hqm : (q, m) = (p, l)
    · rw [if_pos hqm, and_iff_left hqm]
    · rw [if_neg hqm, hf.alerting]
      exact iff_of_false (fun hm => hqm (oldMark q m hm)) fun hc => hqm hc.2
  · rw [hclaim, hloops]
    by_cases hqm : (q, m) = (p, l)
    · rw [if_pos hqm, and_iff_left hqm]
    · rw [if_neg hqm, hf.connecting]
      refine iff_of_false ?_ fun hc => hqm hc.2
      rintro ⟨c, hc, rfl, rfl⟩
      exact hqm (oldClaim c hc)
  · rw [hloc, ← hf.held, hloops]
    by_cases hqm : (q, m) = (p, l)
    · cases hqm
      rw [if_pos rfl, hold, hx]
    · rw [if_neg hqm]
  · rw [horbits, hloc]; exact hf.parked o
  · rw [hcamps, hloc]; exact hf.camped ext
  · rw [horbits, hloc]; exact hf.rescued m o
  · rw [horbits, hloc]
    intro ho
    refine (hf.reserved o ho).imp_left fun ⟨q, m, hl, htalk⟩ => ⟨q, m, hl, ?_⟩
    rw [hloops, if_neg, htalk]
    rintro hqm
    cases hqm
    rw [htalk] at hold
    cases hold
  · rw [horbits, horbits]; exact hf.once o o'
  · rw [hloc]; exact marked h

/-- Work at one slot that gives one loop a state that comes onto a free voice path or becomes ALERTING. -/
theorem HoldBut.newLoop {i : Slot} {s t : State} {p : Pos} {l : LoopNo} {x : LoopState} (hs : HoldBut i s) (ht : Touch i s t)
    (hcamp : t.camp = s.camp) (ho : t.orders = s.orders) (hloops : ∀ q m, t.loop q m = if (q, m) = (p, l) then x else s.loop q m)
    (newVoice : t.holdsVoice p l = true → ∀ m, m ≠ l → s.holdsVoice p m = false)
    (newAlert : x.isAlerting = true → ∀ m, m ≠ l → (s.loop p m).isAlerting = false) : HoldBut i t := by
  have hother {q : Pos} {m : LoopNo} (hqm : (q, m) ≠ (p, l)) : t.loop q m = s.loop q m := by rw [hloops, if_neg hqm]
  refine ⟨fun j hj => (ht j hj).slotOk (hs.slots j hj), campFits_same hcamp ho hs.camp,
    voiceOk_of_new (p := p) (l := l) hs.voice ht (fun q m hqm _ hv => ?_) (fun q m hqm h => alerting_slot? ((hother hqm).symm.trans h))
      newVoice fun h => newAlert (by rwa [hloops, if_pos rfl] at h)⟩
  rw [holdsVoice_iff, retrieved_iff, hother hqm] at hv
  rw [holdsVoice_iff, retrieved_iff]
  simpa only [State.ordered, ho] using hv

theorem not_holdsVoice {s : State} {p : Pos} {l : LoopNo} (hv : (s.loop p l).onVoicePath = false)
    (hh : ∀ j, s.loop p l ≠ .held j ∧ s.loop p l ≠ .recalling j) : s.holdsVoice p l = false := by
  rw [Bool.eq_false_iff]
  intro h
  obtain h | h := (holdsVoice_iff s p l).1 h
  · rw [hv] at h; cases h
  · obtain ⟨j, hj, -⟩ := (retrieved_iff s p l).1 h
    exact hj.elim (hh j).1 (hh j).2

/-! ### Offers (R52) -/

/-- Work that no slot sees, before a record is written. -/
theorem SameHold.setSlot {s t : State} (h : SameHold s t) (i : Slot) (x : SlotState) : SameHold (s.setSlot i x) (t.setSlot i x) :=
  ⟨by simp only [State.setSlot, h.slots], h.loops, h.orbits, h.camp, h.orders⟩

theorem holders_offer {s : State} {p : Pos} {l : LoopNo} {i : Slot} (hs : s.holdersOk) (h : s.nextOffer = some (p, l, i)) :
    (s.offer p l i).holdersOk := by
  obtain ⟨-, hquiet, hlowest, hbest⟩ := offerAt_some (nextOffer_some h).1
  obtain ⟨r, hr, hloc, hmark, hclaim, hf, -⟩ := eligible_record (offerable_eligible (offerable_of_best hbest).2)
  have hlive := (record?_eq_some s i).1 hr
  have hidle := lowestIdle_idle hlowest
  have hcarried := carried_of_settled hs hlive hf hmark
  have hbut : HoldBut i (s.setLoop p l (.alerting i)) := by
    refine hcarried.but.newLoop (touch_setLoop (only_of_idle hidle) fun j hj => (Option.some.inj hj).symm) rfl rfl
      (loop_after_setLoop s p l _) (fun hv => ?_) fun _ m _ => ((loopsQuiet_iff s p).1 hquiet m).2
    have hloop : (s.setLoop p l (.alerting i)).loop p l = .alerting i := by rw [loop_after_setLoop, if_pos rfl]
    rw [not_holdsVoice (by rw [hloop]; rfl) (fun j => by rw [hloop]; exact ⟨nofun, nofun⟩)] at hv
    cases hv
  have hfits : Fits ((s.setLoop p l (.alerting i)).setSlot i (.live (s.offeredRecord r p l))) i (s.offeredRecord r p l) := by
    refine hcarried.fits.redealt (p := p) (l := l) (x := .alerting i) (loop_after_setLoop s p l _) (fun _ => rfl) rfl
      (by rw [hidle]; rfl) rfl (fun q m hm => ?_) (fun c hc => ?_) (fun q m => ?_) (fun q m => ?_) rfl
      (fun _ => ⟨hloc, hclaim, fun y hy => ?_⟩) fun c hc => ?_
    · rw [hmark] at hm; cases hm
    · rw [hclaim] at hc; cases hc
    · rw [and_iff_right rfl]
      exact Option.some_inj.trans eq_comm
    · refine iff_of_false ?_ nofun
      rintro ⟨c, hc, -⟩
      rw [show (s.offeredRecord r p l).claim = none from hclaim] at hc
      cases hc
    · cases hy; rfl
    · rw [show (s.offeredRecord r p l).claim = none from hclaim] at hc
      cases hc
  have hsame : SameHold ((s.setLoop p l (.alerting i)).setSlot i (.live (s.offeredRecord r p l))) (s.offer p l i) := by
    rw [offer_live hlive]
    exact ((sameHold_raiseLoop _ p .offer l).setSlot i _).trans (.of_fields rfl rfl rfl rfl rfl)
  refine hsame.holders (Fitted.holders ⟨hbut.setSlot _, slot_setSlot_self _ _ _, hfits⟩ ⟨fun _ => hf, fun c hc => ?_, fun o ho =>
    absurd ho (hcarried.plain.orbit o)⟩ fun c hc => ?_)
  · rw [show (s.offeredRecord r p l).claim = none from hclaim] at hc
    cases hc
  · rw [show (s.offeredRecord r p l).claim = none from hclaim] at hc
    cases hc

theorem holders_offerOnce {s : State} (hs : s.holdersOk) : s.offerOnce.holdersOk := by
  obtain h | ⟨p, l, i, hnext, h⟩ := offerOnce_cases s <;> rw [h]
  · exact hs
  · exact holders_offer hs hnext

theorem holders_foldl {α : Type} {f : State → α → State} (hf : ∀ s a, s.holdersOk → (f s a).holdersOk) (xs : List α) {s : State}
    (hs : s.holdersOk) : (xs.foldl f s).holdersOk := by
  induction xs generalizing s with
  | nil => exact hs
  | cons x xs ih => exact ih (hf s x hs)

theorem holders_makeOffers {s : State} (hs : s.holdersOk) : s.makeOffers.holdersOk :=
  holders_foldl (fun _ _ h => holders_offerOnce h) allPos hs

theorem holders_finishOrders {s : State} (hs : s.holdersOk) : s.finishOrders.holdersOk := (sameHold_finishOrders s).holders hs

theorem holders_finishOffers {s : State} (hs : s.holdersOk) : s.finishOffers.holdersOk := holders_finishOrders (holders_makeOffers hs)

end Sys2Proof.Machine
end

section
/-! PROOFS. Claims in the view from a slot: request, grant, acknowledgement, refusal and the drop of a WAITING one (R19 to R22). -/

namespace Sys2Proof.Machine

/-! ### A claim request (R19, R20) -/

/-- A loop that is IDLE or ALERTING for a call becomes CONNECTING for it, its claim on the record. -/
theorem Fitted.claimAt {i : Slot} {s : State} {r r' : Record} {p : Pos} {l : LoopNo} {g : Bool} (h : Fitted i s r)
    (hloop : s.loop p l = .idle ∨ s.loop p l = .alerting i) (hfree : s.voiceFree p = true) (hclaim : r.claim = none)
    (hmark : r.mark = none ∨ r.mark = some (p, l)) (hloc : r'.loc = r.loc) (hm : r'.mark = none) (hc : r'.claim = some ⟨p, l, g⟩)
    (hplace : g = true → r.loc = .queued ∨ ∃ o, r.loc = .parked o) :
    Fitted i ((s.loopConnecting p l i).setSlot i (.live r')) r' := by
  have hheld : (s.loop p l).held? = none := by obtain h | h := hloop <;> rw [h] <;> rfl
  have honly (j : Slot) (hj : (s.loop p l).slot? = some j) : j = i := by
    obtain h | h := hloop <;> rw [h] at hj
    · cases hj
    · exact (Option.some.inj hj).symm
  refine ⟨(h.but.newLoop (touch_loopConnecting honly) rfl rfl (loop_after_loopConnecting s p l i)
    (fun _ m _ => (voiceFree_iff s p).1 hfree m) nofun).setSlot _, slot_setSlot_self _ _ _,
    h.fits.redealt (p := p) (l := l) (x := .connecting i) (loop_after_loopConnecting s p l i) (fun _ => rfl) rfl hheld rfl
      (fun q m hq => ?_) (fun c hq => ?_) (fun q m => ?_) (fun q m => ?_) hloc (fun hne => absurd hm hne) fun c hq hg => ?_⟩
  · obtain hn | hn := hmark <;> rw [hn] at hq <;> cases hq
    rfl
  · rw [hclaim] at hq; cases hq
  · rw [hm]; exact iff_of_false nofun fun hq => nomatch hq.1
  · rw [hc, and_iff_right rfl]
    refine ⟨?_, ?_⟩
    · rintro ⟨c, hq, rfl, rfl⟩
      cases hq
      rfl
    · intro hq
      cases hq
      exact ⟨_, rfl, rfl, rfl⟩
  · rw [hc] at hq
    cases hq
    exact hplace hg

theorem ordered_issue {s : State} {i : Slot} {r : Record} (hr : s.slot i = .live r) (hf : s.inFlight i = false) (o : Order) (m : Mark) :
    (s.issue i o m).ordered i o := by
  have hissue : s.issue i o m = { s with orders := s.orders ++ [⟨i, r.ref, o, m, .waiting, 0⟩] } := by
    rw [State.issue, (record?_eq_some s i).2 hr]
    exact if_neg (by rw [hf]; decide)
  rw [hissue, ordered_append]
  exact .inr ⟨rfl, rfl⟩

/-- A granted claim with its CONNECT issued. -/
theorem Fitted.granted {i : Slot} {s : State} {r : Record} {p : Pos} {l : LoopNo} (h : Fitted i s r)
    (hc : ∃ p l, r.claim = some ⟨p, l, true⟩) (hf : s.inFlight i = false) (hres : ∀ o, s.orbit o ≠ .reserved i) :
    (s.issue i (.connect p l) .none).holdersOk := by
  obtain ⟨p', l', hc⟩ := hc
  have hm := h.fits.mark_none_of_claim hc
  have hnotloop : ∀ q m, r.loc ≠ .loop q m := fun q m hl => by
    obtain hq | ⟨o, hq⟩ := h.fits.claimed _ hc rfl <;> rw [hl] at hq <;> cases hq
  refine (h.issue (o := .connect p l) .none rfl fun _ q m => ⟨fun hl => ?_, fun hl => ?_⟩).holders
    ⟨fun hne => absurd hm hne, fun c _ _ => ⟨p, l, ordered_issue h.live hf _ _⟩, fun o ho => ?_⟩ fun c hcl hg => ?_
  · exact hnotloop q m ((h.fits.held q m).1 (by rw [hl]; rfl))
  · exact hnotloop q m ((h.fits.held q m).1 (by rw [hl]; rfl))
  · rw [issue_frame] at ho
    exact absurd ho (hres o)
  · rw [hc] at hcl
    cases hcl
    cases hg

theorem reserved_of_inFlight {s : State} {i : Slot} {r : Record} (ho : OrdersFit s i r) (hf : s.inFlight i = false) (o : OrbitNo) :
    s.orbit o ≠ .reserved i := fun h => by
  rw [(inFlight_iff_ordered s i).2 ⟨_, ho.reserved o h⟩] at hf
  cases hf

/-- A claim request from an IDLE loop, or from the loop ALERTING for the call, over a free voice path (R19). -/
theorem holders_claimRequest {s : State} {p : Pos} {l : LoopNo} {i : Slot} (hs : s.holdersOk) (how : Request)
    (hloop : s.loop p l = .idle ∨ s.loop p l = .alerting i) (hfree : s.voiceFree p = true)
    (hmark : ∀ r, s.slot i = .live r → r.mark = none ∨ r.mark = some (p, l))
    (hwait : s.inFlight i = true → ∀ r, s.slot i = .live r → (∃ o, r.loc = .parked o) ∨ ∃ o, s.orbit o = .reserved i) :
    (s.claimRequest p l i how).holdersOk := by
  have htone := (sameHold_errorTone s p).holders hs
  unfold State.claimRequest
  split
  case h_2 => exact htone
  case h_1 r hrec =>
    have hr := (record?_eq_some s i).1 hrec
    obtain ⟨h, ho, hw⟩ := fitted_of_holders hs hr
    split
    · exact htone
    · next hnone =>
      have hclaim : r.claim = none := by simpa using hnone
      split
      · next hflight =>
        rw [updRec_slots_of_live hr]
        have hm : r.mark = none := by
          by_contra hm
          rw [ho.marked hm] at hflight
          cases hflight
        refine (h.claimAt (r' := { r with claim := some ⟨p, l, false⟩ }) hloop hfree hclaim (.inl hm) rfl hm rfl nofun).holders
          ⟨fun hne => absurd hm hne, fun c hc hg => ?_, ho.reserved⟩ fun c _ _ => ⟨hflight, hwait hflight r hr⟩
        cases hc
        cases hg
      · next hflight =>
        have hf : s.inFlight i = false := by simpa using hflight
        split
        · next hpick =>
          have hplace : r.loc = .queued ∨ ∃ o, r.loc = .parked o := by
            cases hl : r.loc with
            | queued => exact .inl rfl
            | parked o => exact .inr ⟨o, rfl⟩
            | _ => rw [hl] at hpick; cases how <;> cases hpick
          have hres := reserved_of_inFlight ho hf
          unfold State.grant
          rw [updRec_slots_of_live hr]
          have hclaimed : ∀ r' : Record, r'.loc = r.loc → r'.mark = none → r'.claim = some ⟨p, l, true⟩ →
              (((s.setSlot i (.live r')).loopConnecting p l i).issue i (.connect p l) .none).holdersOk := fun r' hl hm hc =>
            (h.claimAt hloop hfree hclaim (hmark r hr) hl hm hc fun _ => hplace).granted ⟨p, l, hc⟩ hf hres
          refine hclaimed _ ?_ ?_ ?_
          · split <;> rfl
          · split
            · rfl
            · next hne => exact (hmark r hr).resolve_right hne
          · split <;> rfl
        · exact htone

/-! ### The end of a claim (R21, R22) -/

/-- The claim of a CONNECTING loop goes, and the loop is IDLE. -/
theorem Fitted.unclaim {i : Slot} {s : State} {r r' : Record} {c : Claim} (h : Fitted i s r) (hc : r.claim = some c)
    (hloc : r'.loc = r.loc) (hm : r'.mark = none) (hc' : r'.claim = none) :
    Fitted i ((s.loopIdle c.pos c.loop).setSlot i (.live r')) r' := by
  have hloop : s.loop c.pos c.loop = .connecting i := (h.fits.connecting _ _).2 ⟨c, hc, rfl, rfl⟩
  have hmark := h.fits.mark_none_of_claim hc
  refine ⟨(h.but.loopIdle fun j hj => by rw [hloop] at hj; exact (Option.some.inj hj).symm).setSlot _, slot_setSlot_self _ _ _,
    h.fits.redealt (p := c.pos) (l := c.loop) (x := .idle) (loop_after_loopIdle s _ _) (fun _ => rfl) rfl (by rw [hloop]; rfl) rfl
      (fun q m hq => ?_) (fun d hq => ?_) (fun q m => ?_) (fun q m => ?_) hloc (fun hne => absurd hm hne) fun d hq => ?_⟩
  · rw [hmark] at hq; cases hq
  · rw [hc] at hq
    cases hq
    rfl
  · rw [hm]; exact iff_of_false nofun fun hq => nomatch hq.1
  · rw [hc']; exact iff_of_false (fun ⟨_, hq, _⟩ => nomatch hq) fun hq => nomatch hq.1
  · rw [hc'] at hq; cases hq

/-- A record between the response to its order and the re-examination of its claim. -/
structure Settling (i : Slot) (s : State) : Prop where
  live : ∀ r, s.slot i = .live r → Fitted i s r ∧ OrdersFit s i r ∧
    ∀ c, r.claim = some c → c.granted = false → s.inFlight i = false ∨ r.loc.isRescue = true
  other : (∀ r, s.slot i ≠ .live r) → s.holdersOk

theorem Settling.of_carried {i : Slot} {s : State} {r : Record} (h : Carried i s r) : Settling i s where
  live r' hr' := by
    rw [h.live] at hr'
    cases hr'
    exact ⟨h.fitted, h.plain.ordersFit.1, fun c hc => by rw [h.plain.claim] at hc; cases hc⟩
  other hn := absurd h.live (hn r)

theorem Settling.of_holders {i : Slot} {s : State} (hs : s.holdersOk)
    (hc : ∀ r c, s.slot i = .live r → r.claim = some c → c.granted = false → s.inFlight i = false ∨ r.loc.isRescue = true) :
    Settling i s where
  live r hr := by
    obtain ⟨h, ho, -⟩ := fitted_of_holders hs hr
    exact ⟨h, ho, fun c => hc r c hr⟩
  other _ := hs

/-- The re-examination of a WAITING claim makes the slot sound (R21). -/
theorem holders_reexamine {i : Slot} {s : State} (h : Settling i s) : (s.reexamine i).holdersOk := by
  unfold State.reexamine
  split
  case h_2 hnone => exact h.other fun r hr => by rw [(record?_eq_some s i).2 hr] at hnone; cases hnone
  case h_1 r hrec =>
    have hr := (record?_eq_some s i).1 hrec
    obtain ⟨hfit, ho, hwait⟩ := h.live r hr
    split
    case h_2 hnone => exact hfit.holders ho fun c hc => by rw [hnone] at hc; cases hc
    case h_1 c hc =>
      have hm := hfit.fits.mark_none_of_claim hc
      split
      · next hkeep =>
        refine hfit.holders ho fun d hd hg => ?_
        rw [hc] at hd
        cases hd
        rw [hg, Bool.false_or, Bool.and_eq_true, Bool.not_eq_true'] at hkeep
        obtain hf | hres := hwait c hc hg
        · rw [hf] at hkeep; cases hkeep.1
        · rw [hres] at hkeep; cases hkeep.2
      · next hkeep =>
        have hg : c.granted = false := by
          rw [Bool.or_eq_true, not_or] at hkeep
          exact Bool.eq_false_iff.2 hkeep.1
        split
        · next hpick =>
          obtain ⟨o, hl⟩ : ∃ o, r.loc = .parked o := by
            cases hl : r.loc with
            | parked o => exact ⟨o, rfl⟩
            | _ => rw [hl] at hpick; cases hpick
          have hf : s.inFlight i = false := (hwait c hc hg).resolve_right (by rw [hl]; exact Bool.false_ne_true)
          rw [updRec_slots_of_live hr]
          have hclaim : Fits (s.setSlot i (.live { r with claim := some ⟨c.pos, c.loop, true⟩ })) i
              { r with claim := some ⟨c.pos, c.loop, true⟩ } :=
            ⟨hfit.fits.alerting, fun q m => (hfit.fits.connecting q m).trans (by rw [hc]; simp), hfit.fits.held, hfit.fits.parked,
              hfit.fits.camped, hfit.fits.rescued, hfit.fits.reserved, hfit.fits.once, fun hne => absurd hm hne,
              fun _ _ _ => .inr ⟨o, hl⟩⟩
          refine Fitted.granted (r := { r with claim := some ⟨c.pos, c.loop, true⟩ })
            ⟨hfit.but.setSlot _, slot_setSlot_self _ _ _, hclaim⟩ ⟨_, _, rfl⟩ hf fun u hu => ?_
          exact (hfit.fits.not_queued_of_reserved hu).2.1 o hl
        · rw [updRec_slots_of_live hr]
          refine (sameHold_errorTone _ _).holders ((hfit.unclaim (r' := { r with claim := none }) hc rfl hm rfl).holders
            ⟨fun hne => absurd hm hne, nofun, fun u hu => ho.reserved u hu⟩ nofun)

end Sys2Proof.Machine
end

section
/-! PROOFS. The keys keep the holders sound (R10, R71 to R82, R93 to R101, R112). -/

namespace Sys2Proof.Machine

/-! ### The call of a loop -/

/-- The call of a loop in TALK, HELD, RECALLING, EXTEND or LOCKED, with no order in flight. -/
theorem carried_of_loop {s : State} {p : Pos} {l : LoopNo} {i : Slot} (hs : s.holdersOk) (hl : (s.loop p l).held? = some i)
    (hf : s.inFlight i = false) : ∃ r, Carried i s r ∧ r.loc = .loop p l := by
  obtain ⟨hloops, -⟩ := id hs
  obtain ⟨r, hr, hloc⟩ := (hloops p l).2.2 i hl
  have hfit := (fitted_of_holders hs hr).1.fits
  exact ⟨r, carried_of_settled hs hr hf (hfit.mark_none (by rw [hloc]; nofun)), hloc⟩

/-- A call stands on one loop. -/
theorem Fits.loop_unique {s : State} {i : Slot} {r : Record} {p q : Pos} {l m : LoopNo} (h : Fits s i r) (hloc : r.loc = .loop p l)
    (hx : (s.loop q m).held? = some i) : q = p ∧ m = l := by
  have := hloc.symm.trans ((h.held q m).1 hx)
  cases this
  exact ⟨rfl, rfl⟩

/-- The call of an EXTEND loop is on no HELD or RECALLING one. -/
theorem Fits.not_retrieved {s : State} {i : Slot} {r : Record} {p : Pos} {l : LoopNo} (h : Fits s i r) (hloc : r.loc = .loop p l)
    (hx : s.loop p l = .extend i) (q : Pos) (m : LoopNo) : s.loop q m ≠ .held i ∧ s.loop q m ≠ .recalling i := by
  refine ⟨fun hc => ?_, fun hc => ?_⟩ <;>
  · obtain ⟨rfl, rfl⟩ := h.loop_unique hloc (q := q) (m := m) (by rw [hc]; rfl)
    rw [hx] at hc
    cases hc

theorem Carried.setStep {i : Slot} {s : State} {r : Record} (h : Carried i s r) (n : Fin 7) :
    Carried i (s.setStep i n) { r with step := n } := h.updRec _ rfl rfl rfl

/-- The return CONNECT of an EXTEND loop (R103). -/
theorem Carried.returnConnect {i : Slot} {s : State} {r : Record} {p : Pos} {l : LoopNo} (h : Carried i s r) (hloc : r.loc = .loop p l)
    (hx : s.loop p l = .extend i) : Carried i (s.returnConnect p l i) { r with step := 6 } :=
  (h.issue (o := .connect p l) .none rfl fun _ => h.fits.not_retrieved hloc hx).setStep 6

/-! ### Retrieval (R77, R72) -/

/-- A CONNECT for a HELD or RECALLING loop, over a free voice path. -/
theorem Carried.retrieve {i : Slot} {s : State} {r : Record} {p : Pos} {l : LoopNo} (h : Carried i s r) (hloc : r.loc = .loop p l)
    (hx : s.loop p l = .held i ∨ s.loop p l = .recalling i) (hfree : s.voiceFree p = true) :
    (s.issue i (.connect p l) .none).holdersOk := by
  have hl (q : Pos) (m : LoopNo) : (s.issue i (.connect p l) .none).loop q m = s.loop q m := by rw [issue_frame]; rfl
  have hob (o : OrbitNo) : (s.issue i (.connect p l) .none).orbit o = s.orbit o := by rw [issue_frame]; rfl
  have hslot : (s.issue i (.connect p l) .none).slot i = .live r := by rw [slot_of_slots (issue_slots _ _ _ _)]; exact h.live
  have hcamp : CampFits (s.issue i (.connect p l) .none) := campFits_issue rfl h.but.camp
  have hvoice : (s.issue i (.connect p l) .none).voiceOk := by
    refine voiceOk_of_new (p := p) (l := l) h.but.voice (touch_issue s i _ _) (fun q m hqm hslot _ => ?_)
      (fun q m _ ha => alerting_slot? ((hl q m).symm.trans ha)) (fun _ m _ => (voiceFree_iff s p).1 hfree m) fun ha => ?_
    · rw [hl] at hslot
      obtain ⟨rfl, rfl⟩ := h.fits.loop_unique hloc (h.loop_eq hslot)
      exact absurd rfl hqm
    · rw [hl] at ha
      obtain hx | hx := hx <;> rw [hx] at ha <;> cases ha
  have hfits : Fits (s.issue i (.connect p l) .none) i r :=
    fits_of_same h.fits hl hob (by rw [issue_frame]) rfl rfl rfl fun hm => (h.fits.marked hm).2.2
  exact Carried.holders (r := r) ⟨⟨fun j hj => (touch_issue s i _ _ j hj).slotOk (h.but.slots j hj), hcamp, hvoice⟩, hslot, hfits,
    h.plain.mark, h.plain.claim, fun o => by rw [hob]; exact h.plain.orbit o⟩

/-! ### CAMP (R101) -/

theorem not_mem_of_filter_nil {α : Type} [BEq α] [LawfulBEq α] {xs : List α} {x : α} (h : x ∉ xs) :
    (xs.filter fun y => y == x) = [] := List.filter_eq_nil_iff.2 fun _ hy hc => h (beq_iff_eq.1 hc ▸ hy)

/-- The calls on the list of an extension, when its entries are unique. -/
theorem campCalls_of_mem {camp : List CampEntry} (h : (camp.map CampEntry.ext).Nodup) {e : CampEntry} (he : e ∈ camp) :
    ((camp.filter fun x => x.ext == e.ext).map fun x => x.calls.length).sum = e.calls.length := by
  have hone : camp.filter (fun x => x.ext == e.ext) = [e] := by
    induction camp with
    | nil => cases he
    | cons x xs ih =>
      rw [List.map_cons, List.nodup_cons] at h
      obtain rfl | he := List.mem_cons.1 he
      · rw [List.filter_cons_of_pos (p := fun x : CampEntry => x.ext == e.ext) (beq_iff_eq.2 rfl), List.filter_eq_nil_iff.2]
        exact fun y hy hc => h.1 (List.mem_map.2 ⟨y, hy, beq_iff_eq.1 hc⟩)
      · rw [List.filter_cons_of_neg, ih h.2 he]
        exact fun hc => h.1 (List.mem_map.2 ⟨e, he, (beq_iff_eq.1 hc).symm⟩)
  rw [hone]
  exact Nat.add_zero _

/-- A CAMP for a destination with room keeps the table within its bounds (R101). -/
theorem campFits_camp {s t : State} {ext : Digits} (h : CampFits s) (hroom : s.campRoom ext = true) (hcamp : t.camp = s.camp)
    (horders : t.campOrders = s.campOrders ++ [ext]) : CampFits t := by
  have hcount (x : Digits) : (t.campOrders.filter fun y => y == x).length =
      (s.campOrders.filter fun y => y == x).length + if x = ext then 1 else 0 := by
    rw [horders, List.filter_append, List.length_append]
    congr 1
    by_cases hx : x = ext
    · rw [if_pos hx, hx, List.filter_cons_of_pos (p := fun y => y == ext) (beq_iff_eq.2 rfl)]
      rfl
    · rw [if_neg hx, List.filter_cons_of_neg (by simpa using Ne.symm hx)]
      rfl
  unfold State.campRoom at hroom
  simp only [Config.campPlaces, Config.campEntries] at hroom
  have hknown : (∀ e ∈ s.camp, e.ext = ext → e.calls.length + (s.campOrders.filter fun y => y == ext).length ≤ 3) ∧
      (s.campOrders.filter fun y => y == ext).length ≤ 3 ∧ (insert ext s.campExts).card ≤ 16 := by
    have hbound := h.entries
    rw [camp_entries_eq h.exts] at hbound
    split at hroom
    · next hc =>
      have hlt := of_decide_eq_true hroom
      refine ⟨fun e he hx => ?_, by omega, ?_⟩
      · subst hx
        rw [campCalls_of_mem h.exts he] at hlt
        omega
      · rw [Finset.insert_eq_of_mem]
        · exact hbound
        · rw [Bool.or_eq_true, List.any_eq_true, List.contains_iff_mem] at hc
          refine Finset.mem_union.2 (hc.imp (fun ⟨e, he, hx⟩ => ?_) List.mem_toFinset.2)
          exact List.mem_toFinset.2 (List.mem_map.2 ⟨e, he, beq_iff_eq.1 hx⟩)
    · next hc =>
      rw [Bool.or_eq_true, not_or, List.any_eq_true, List.contains_iff_mem] at hc
      have hlt := of_decide_eq_true hroom
      have hnone : (s.campOrders.filter fun y => y == ext) = [] := not_mem_of_filter_nil hc.2
      refine ⟨fun e he hx => absurd ⟨e, he, beq_iff_eq.2 hx⟩ hc.1, by rw [hnone]; exact Nat.zero_le 3, ?_⟩
      have hothers : (s.campOrders.filter fun x => x != ext && !s.camp.any fun e => e.ext == x) =
          s.campOrders.filter fun x => !s.camp.any fun e => e.ext == x := by
        refine List.filter_congr fun x hx => ?_
        rw [(bne_iff_ne.2 fun hxe => hc.2 (hxe ▸ hx) : (x != ext) = true), Bool.true_and]
      rw [hothers, camp_entries_eq h.exts] at hlt
      exact (Finset.card_insert_le _ _).trans hlt
  obtain ⟨hplaces, hasked, hcard⟩ := hknown
  have hexts : (t.camp.map CampEntry.ext).Nodup := by rw [hcamp]; exact h.exts
  refine ⟨hexts, by rw [hcamp]; exact h.lists, fun e he => ?_, fun x => ?_, ?_⟩
  · rw [hcamp] at he
    rw [hcount]
    by_cases hx : e.ext = ext
    · have := hplaces e he hx
      rw [if_pos hx, hx]
      omega
    · rw [if_neg hx]
      exact h.places e he
  · rw [hcount]
    by_cases hx : x = ext
    · rw [if_pos hx, hx]
      omega
    · rw [if_neg hx]
      exact h.asked x
  · rw [camp_entries_eq hexts]
    refine (Finset.card_le_card fun x hx => ?_).trans hcard
    rw [State.campExts, hcamp, horders, List.toFinset_append, Finset.mem_union, Finset.mem_union] at hx
    rw [Finset.mem_insert, State.campExts, Finset.mem_union]
    obtain hx | hx | hx := hx
    · exact .inr (.inl hx)
    · exact .inr (.inr hx)
    · exact .inl (List.mem_singleton.1 (List.mem_toFinset.1 hx))

/-- A CAMP for a call on an EXTEND loop (R101). -/
theorem Carried.issueCamp {i : Slot} {s : State} {r : Record} {ext : Digits} (h : Carried i s r) (hf : s.inFlight i = false)
    (hroom : s.campRoom ext = true) (m : Mark) : Carried i (s.issue i (.camp ext) m) r := by
  have hissue : s.issue i (.camp ext) m = { s with orders := s.orders ++ [⟨i, r.ref, .camp ext, m, .waiting, 0⟩] } := by
    rw [State.issue, (record?_eq_some s i).2 h.live]
    exact if_neg (by rw [hf]; exact Bool.false_ne_true)
  have hcamp : CampFits (s.issue i (.camp ext) m) :=
    campFits_camp h.but.camp hroom (by rw [issue_frame]) (by rw [hissue, campOrders_append]; rfl)
  have hl (q : Pos) (n : LoopNo) : (s.issue i (.camp ext) m).loop q n = s.loop q n := by rw [issue_frame]; rfl
  have hob (o : OrbitNo) : (s.issue i (.camp ext) m).orbit o = s.orbit o := by rw [issue_frame]; rfl
  refine ⟨h.but.touch (touch_issue s i _ _) hcamp (fun q n _ hv => ?_) fun q n ha => alerting_slot? ((hl q n).symm.trans ha),
    by rw [slot_of_slots (issue_slots _ _ _ _)]; exact h.live,
    fits_of_same h.fits hl hob (by rw [issue_frame]) rfl rfl rfl fun hm => (h.fits.marked hm).2.2,
    h.plain.mark, h.plain.claim, fun o => by rw [hob]; exact h.plain.orbit o⟩
  rw [holdsVoice_iff, retrieved_iff, hl] at hv
  rw [holdsVoice_iff, retrieved_iff]
  refine hv.imp_right fun ⟨j, hj, p', l', hord⟩ => ⟨j, hj, p', l', ?_⟩
  rw [hissue, ordered_append] at hord
  exact hord.resolve_right fun hc => nomatch hc.2

/-! ### Parking (R81, R112) -/

/-- What refers to a call on a loop or in the rescue set, after its loop and its reservation gave way to one orbit. -/
theorem Fits.parked_of {s t : State} {i : Slot} {r r' : Record} {o : OrbitNo} (h : Fits s i r) (hm : r.mark = none)
    (hloops : ∀ q m, t.loop q m = if r.loc = .loop q m then .idle else s.loop q m)
    (horbits : ∀ u, t.orbit u = if o = u then .occupied i else s.orbit u) (hcamps : ∀ ext, ¬ t.campsOn i ext)
    (honly : ∀ u, (s.orbit u).names i = true → u = o) (hloc : r'.loc = .parked o) (hm' : r'.mark = none)
    (hc : r'.claim = r.claim) : Fits t i r' := by
  have hother {q : Pos} {m : LoopNo} {x : LoopState} (hx : x ≠ .idle) (hnot : x.held? = none) : t.loop q m = x ↔ s.loop q m = x := by
    rw [hloops]
    by_cases hl : r.loc = .loop q m
    · rw [if_pos hl]
      have hheld := (h.held q m).2 hl
      exact iff_of_false (Ne.symm hx) fun hc => by rw [hc, hnot] at hheld; cases hheld
    · rw [if_neg hl]
  have only {w : OrbitNo} (hw : (t.orbit w).names i = true) : o = w := by
    by_contra hc
    rw [horbits, if_neg hc] at hw
    exact hc (honly w hw).symm
  have hoccupied : t.orbit o = .occupied i := by rw [horbits, if_pos rfl]
  refine ⟨fun q m => ?_, fun q m => ?_, fun q m => ?_, fun u => ?_, fun ext => ?_, fun m u hu => ?_, fun u hu => ?_, fun u v hu hv => ?_,
    fun hne => absurd hm' hne, fun _ _ _ => .inr ⟨o, hloc⟩⟩
  · rw [hother (x := .alerting i) LoopState.noConfusion rfl, hm', ← hm]
    exact h.alerting q m
  · rw [hother (x := .connecting i) LoopState.noConfusion rfl, hc]
    exact h.connecting q m
  · rw [hloops, hloc]
    refine iff_of_false (fun hx => ?_) nofun
    split at hx
    · cases hx
    · next hl => exact hl ((h.held q m).1 hx)
  · rw [hloc]
    refine ⟨fun hu => congrArg Location.parked (only ((names_iff _ _).2 (.inr hu))), fun hu => ?_⟩
    cases hu
    exact hoccupied
  · exact iff_of_false (hcamps ext) (by rw [hloc]; exact nofun)
  · rw [hloc] at hu
    cases hu
  · have := only ((names_iff _ _).2 (.inl hu))
    subst this
    rw [hoccupied] at hu
    cases hu
  · rw [← only hu, ← only hv]

/-- A call that leaves its loop, or the rescue set, for an orbit: reserved for it, or EMPTY where no other orbit is reserved for it. -/
theorem Fitted.park {i : Slot} {s : State} {r : Record} {o : OrbitNo} (h : Fitted i s r)
    (hloc : (∃ p l, r.loc = .loop p l) ∨ ∃ m, r.loc = .rescue m) (ho : s.orbit o = .empty ∨ s.orbit o = .reserved i)
    (honly : ∀ u, (s.orbit u).names i = true → u = o) (p : Pos) :
    ∃ r', Fitted i ((s.leaveHolder i).placeInOrbit i o p) r' ∧ r'.loc = .parked o ∧ r'.claim = r.claim ∧ r'.mark = none := by
  have hne : r.loc ≠ .queued ∧ (∀ u, r.loc ≠ .parked u) ∧ ∀ ext, r.loc ≠ .camped ext := by
    obtain ⟨q, m, hl⟩ | ⟨m, hl⟩ := hloc <;> rw [hl] <;> exact ⟨nofun, nofun, nofun⟩
  have hm : r.mark = none := h.fits.mark_none hne.1
  have hlive : (s.leaveHolder i).slot i = .live r := by rw [leaveHolder_slot]; exact h.live
  have horbit (u : OrbitNo) : (s.leaveHolder i).orbit u = s.orbit u := by
    rw [orbit_leaveHolder h.live, if_neg fun hc => hne.2.1 _ hc.1.choose_spec]
  have hbut : HoldBut i ((s.leaveHolder i).setOrbit o (.occupied i)) := by
    refine (h.but.leaveHolder fun r' hr' => ?_).setOrbit ?_ (.inr ((names_iff _ _).2 (.inr rfl)))
    · rw [h.live] at hr'
      cases hr'
      exact h.fits
    · rw [horbit]
      exact ho.imp_right fun ho => (names_iff _ _).2 (.inl ho)
  rw [placeInOrbit_eq hlive]
  refine ⟨_, ⟨hbut.setSlot _, slot_setSlot_self _ _ _, h.fits.parked_of (o := o) hm (fun q n => loop_leaveHolder h.live q n)
    (fun u => (orbit_setOrbit (s.leaveHolder i) o u _).trans (by rw [horbit])) (fun ext hc => ?_) honly rfl hm rfl⟩, rfl, rfl, hm⟩
  exact ((campsOn_leaveHolder h.live h.fits i ext).1 hc).2 rfl

/-- An EMPTY orbit reserved for a TALK call, and HOLD issued (R81). -/
theorem holders_reserve {i : Slot} {s : State} {r : Record} {p : Pos} {l : LoopNo} {o : OrbitNo} (h : Carried i s r)
    (hf : s.inFlight i = false) (hloc : r.loc = .loop p l) (htalk : s.loop p l = .talk i) (ho : s.orbit o = .empty) :
    ((s.setOrbit o (.reserved i)).issue i .hold .none).holdersOk := by
  have horbit (u : OrbitNo) : (s.setOrbit o (.reserved i)).orbit u = if o = u then .reserved i else s.orbit u := orbit_setOrbit s o u _
  have hfits : Fits (s.setOrbit o (.reserved i)) i r := by
    refine ⟨h.fits.alerting, h.fits.connecting, h.fits.held, fun u => ?_, h.fits.camped, fun m u hm => ?_, fun u _ =>
      .inl ⟨p, l, hloc, htalk⟩, fun u v hu hv => ?_, h.fits.marked, h.fits.claimed⟩
    · rw [horbit]
      split
      · exact iff_of_false nofun (by rw [hloc]; exact nofun)
      · exact h.fits.parked u
    · rw [hloc] at hm
      cases hm
    · have only {w : OrbitNo} (hw : ((s.setOrbit o (.reserved i)).orbit w).names i = true) : o = w := by
        by_contra hc
        rw [horbit, if_neg hc] at hw
        have := h.orbit_eq hw
        rw [hloc] at this
        cases this
      rw [← only hu, ← only hv]
  have hfitted : Fitted i (s.setOrbit o (.reserved i)) r := ⟨h.but.setOrbit (.inl ho) (.inr ((names_iff _ _).2 (.inl rfl))), h.live, hfits⟩
  refine (hfitted.issue (o := .hold) .none rfl fun hc => nomatch hc).holders ⟨fun hc => absurd h.plain.mark hc, fun c hc => ?_, fun u _ =>
    ordered_issue (s := s.setOrbit o (.reserved i)) h.live hf _ _⟩ fun c hc => ?_
  · rw [h.plain.claim] at hc
    cases hc
  · rw [h.plain.claim] at hc
    cases hc

end Sys2Proof.Machine
end

section
/-! PROOFS. Every key keeps the holders sound, and so does the evaluation of the key buffers (R73, R74). -/

namespace Sys2Proof.Machine

/-! ### Position keys -/

theorem sameHold_nowUnstaffed (s : State) : SameHold s s.nowUnstaffed := by
  unfold State.nowUnstaffed
  split
  · exact .refl s
  · exact .of_fields rfl rfl rfl rfl rfl

theorem sameHold_keyOpen (s : State) (p : Pos) : SameHold s (s.keyOpen p) := by
  unfold State.keyOpen
  split
  · exact SameHold.trans (sameHold_updPos (p := p) (f := fun q => { q with state := .opened }) rfl) (.of_fields rfl rfl rfl rfl rfl)
  · exact sameHold_errorTone s p

theorem sameHold_keyClose (s : State) (p : Pos) : SameHold s (s.keyClose p) := by
  unfold State.keyClose
  split
  · exact (sameHold_updPos rfl).trans (sameHold_nowUnstaffed _)
  · exact sameHold_errorTone s p

theorem sameHold_keyWithdraw (s : State) (p : Pos) : SameHold s (s.keyWithdraw p) := by
  unfold State.keyWithdraw
  split
  · exact sameHold_updPos rfl
  · exact sameHold_errorTone s p

theorem sameHold_keyResume (s : State) (p : Pos) : SameHold s (s.keyResume p) := by
  unfold State.keyResume
  split
  · exact sameHold_updPos rfl
  · exact sameHold_errorTone s p

theorem sameHold_keyReview (s : State) (p : Pos) : SameHold s (s.keyReview p) := by
  unfold State.keyReview
  split
  · split
    · exact sameHold_updPos rfl
    · exact sameHold_errorTone s p
  · exact sameHold_errorTone s p

theorem holders_keyAnswerNext {s : State} (hs : s.holdersOk) (p : Pos) : (s.keyAnswerNext p).holdersOk := by
  have herror := (sameHold_errorTone s p).holders hs
  unfold State.keyAnswerNext
  split
  · next hgate =>
    obtain ⟨-, hfree⟩ := Bool.and_eq_true_iff.1 hgate
    split
    · next l i hl hbest =>
      obtain ⟨r, hr, -, hmark, -, hf, -⟩ := eligible_record (List.mem_filter.1 (bestOf_mem hbest)).2
      refine holders_claimRequest hs .answer (.inl (lowestIdle_idle hl)) hfree (fun r' hr' => .inl ?_) fun hc => ?_
      · rw [(record?_eq_some s i).1 hr] at hr'
        cases hr'
        exact hmark
      · rw [hf] at hc
        cases hc
    · exact herror
  · exact herror

theorem holders_keyPickup {s : State} (hs : s.holdersOk) (p : Pos) (a : KeyArgs) : (s.keyPickup p a).holdersOk := by
  have herror := (sameHold_errorTone s p).holders hs
  unfold State.keyPickup
  split
  · next hgate =>
    obtain ⟨-, hfree⟩ := Bool.and_eq_true_iff.1 hgate
    split
    · next l i hl hpick =>
      obtain ⟨o, -, ho⟩ := Option.bind_eq_some_iff.1 hpick
      have hnames : s.orbit o = .reserved i ∨ s.orbit o = .occupied i := by
        cases hx : s.orbit o <;> rw [hx] at ho <;> cases ho
        · exact .inl rfl
        · exact .inr rfl
      refine holders_claimRequest hs .pickup (.inl (lowestIdle_idle hl)) hfree (fun r hr => .inl ?_) fun _ r hr => ?_
      · have hfit := (fitted_of_holders hs hr).1.fits
        refine hfit.mark_none fun hq => ?_
        obtain hx | hx := hnames
        · exact (hfit.not_queued_of_reserved hx).1 hq
        · have := (hfit.parked o).1 hx
          rw [hq] at this
          cases this
      · have hfit := (fitted_of_holders hs hr).1.fits
        exact hnames.symm.imp (fun hx => ⟨o, (hfit.parked o).1 hx⟩) fun hx => ⟨o, hx⟩
    · exact herror
  · exact herror

/-! ### Loop keys -/

/-- A loop whose call has no order in flight (R74). -/
def State.loopSettled (s : State) (p : Pos) (l : LoopNo) : Prop := ∀ i, (s.loop p l).slot? = some i → s.inFlight i = false

section
variable {s : State} {p : Pos} {l : LoopNo}

/-- The call of a loop whose keys do not wait. -/
theorem carried_of_settled_loop (hs : s.holdersOk) (hf : s.loopSettled p l) {i : Slot} (hx : (s.loop p l).held? = some i) :
    s.inFlight i = false ∧ ∃ r, Carried i s r ∧ r.loc = .loop p l :=
  have hflight := hf i ((slot?_eq_some _ _).2 (.inr (.inr hx)))
  ⟨hflight, carried_of_loop hs hx hflight⟩

/-- An order other than CONNECT and CAMP for the call of a loop. -/
theorem carried_issue_of_loop (hs : s.holdersOk) (hf : s.loopSettled p l) {i : Slot} (hx : (s.loop p l).held? = some i) {o : Order}
    (hcamp : o.campExt? = none) (hconn : o.isConnect = false) (m : Mark) : ∃ r, Carried i (s.issue i o m) r := by
  obtain ⟨-, r, h, -⟩ := carried_of_settled_loop hs hf hx
  exact ⟨r, h.issueOther m hcamp hconn⟩

theorem holders_issue_of_loop (hs : s.holdersOk) (hf : s.loopSettled p l) {i : Slot} (hx : (s.loop p l).held? = some i) {o : Order}
    (hcamp : o.campExt? = none) (hconn : o.isConnect = false) (m : Mark) : (s.issue i o m).holdersOk := by
  obtain ⟨r, h⟩ := carried_issue_of_loop hs hf hx hcamp hconn m
  exact h.holders

theorem holders_issue_setStep (hs : s.holdersOk) (hf : s.loopSettled p l) {i : Slot} (hx : (s.loop p l).held? = some i) {o : Order}
    (hcamp : o.campExt? = none) (hconn : o.isConnect = false) (m : Mark) (n : Fin 7) : ((s.issue i o m).setStep i n).holdersOk := by
  obtain ⟨r, h⟩ := carried_issue_of_loop hs hf hx hcamp hconn m
  exact (h.setStep n).holders

theorem holders_keyLoop (hs : s.holdersOk) (hf : s.loopSettled p l) : (s.keyLoop p l).holdersOk := by
  have herror := (sameHold_errorTone s p).holders hs
  unfold State.keyLoop
  split
  · next hfree =>
    split
    · next i hx =>
      refine holders_claimRequest hs .answer (.inr hx) hfree (fun r hr => .inr ?_) fun hc => ?_
      · exact ((fitted_of_holders hs hr).1.fits.alerting p l).1 hx
      · rw [hf i (by rw [hx]; rfl)] at hc
        cases hc
    · next i hx =>
      obtain ⟨-, r, h, hloc⟩ := carried_of_settled_loop hs hf (i := i) (by rw [hx]; rfl)
      exact h.retrieve hloc (.inl hx) hfree
    · next i hx =>
      obtain ⟨-, r, h, hloc⟩ := carried_of_settled_loop hs hf (i := i) (by rw [hx]; rfl)
      exact h.retrieve hloc (.inr hx) hfree
    · exact herror
  · exact herror

theorem holders_keyHold (hs : s.holdersOk) (hf : s.loopSettled p l) : (s.keyHold p l).holdersOk := by
  unfold State.keyHold
  split
  · next i hx => exact holders_issue_of_loop hs hf (by rw [hx]; rfl) rfl rfl _
  · exact (sameHold_errorTone s p).holders hs

theorem holders_keyClear (hs : s.holdersOk) (hf : s.loopSettled p l) : (s.keyClear p l).holdersOk := by
  unfold State.keyClear
  split
  · next i hx => exact holders_issue_of_loop hs hf (by rw [hx]; rfl) rfl rfl _
  · exact (sameHold_errorTone s p).holders hs

theorem holders_keyRelease (hs : s.holdersOk) (hf : s.loopSettled p l) : (s.keyRelease p l).holdersOk := by
  have herror := (sameHold_errorTone s p).holders hs
  unfold State.keyRelease
  split
  · next i hx => exact holders_issue_of_loop hs hf (by rw [hx]; rfl) rfl rfl _
  · next i hx => exact holders_issue_of_loop hs hf (by rw [hx]; rfl) rfl rfl _
  · next i hx => exact holders_issue_of_loop hs hf (by rw [hx]; rfl) rfl rfl _
  · next i hx =>
    split
    · exact holders_issue_setStep hs hf (by rw [hx]; rfl) rfl rfl _ _
    · split
      · exact holders_issue_setStep hs hf (by rw [hx]; rfl) rfl rfl _ _
      · exact herror
  · exact herror

theorem parkOrbit_empty {a : KeyArgs} {o : OrbitNo} (h : s.parkOrbit a = some o) : s.orbit o = .empty := by
  unfold State.parkOrbit at h
  split at h
  · split at h
    · next he =>
      cases h
      exact he
    · cases h
  · simpa using List.find?_some h
  · cases h

theorem holders_keyPark (hs : s.holdersOk) (hf : s.loopSettled p l) (a : KeyArgs) : (s.keyPark p l a).holdersOk := by
  unfold State.keyPark
  split
  · next o i ho hx =>
    obtain ⟨hflight, r, h, hloc⟩ := carried_of_settled_loop hs hf (i := i) (by rw [hx]; rfl)
    exact holders_reserve h hflight hloc hx (parkOrbit_empty ho)
  · next o i ho hx =>
    obtain ⟨hflight, r, h, hloc⟩ := carried_of_settled_loop hs hf (i := i) (by rw [hx]; rfl)
    have hnoted := h.same (sameHold_noteFor s p l (some i) (parkedText o))
    have horbit : (s.noteFor p l (some i) (parkedText o)).orbit o = .empty := parkOrbit_empty ho
    obtain ⟨r', hpark, hloc', hclaim, hmark⟩ := hnoted.fitted.park (.inl ⟨p, l, hloc⟩) (.inl horbit) (fun u hu => by
      have := hnoted.orbit_eq hu
      rw [hloc] at this
      cases this) p
    refine (hpark.carried ⟨hmark, hclaim.trans h.plain.claim, fun u hu => ?_⟩).holders
    exact (hpark.fits.not_queued_of_reserved hu).2.1 o hloc'
  · exact (sameHold_errorTone s p).holders hs

theorem holders_keyExtend (hs : s.holdersOk) (hf : s.loopSettled p l) (a : KeyArgs) : (s.keyExtend p l a).holdersOk := by
  unfold State.keyExtend
  split
  · next i ext hx _ =>
    obtain ⟨-, r, h, hloc⟩ := carried_of_settled_loop hs hf (i := i) (by rw [hx]; rfl)
    have hext := h.setLoop (x := .extend i) hloc rfl fun _ => holdsVoice_of_path (by rw [hx]; rfl)
    exact ((hext.updRec (fun r => { r with step := 1, dest := some ext }) rfl rfl rfl).issueOther _ rfl rfl).holders
  · exact (sameHold_errorTone s p).holders hs

theorem holders_keyCancel (hs : s.holdersOk) (hf : s.loopSettled p l) : (s.keyCancel p l).holdersOk := by
  have herror := (sameHold_errorTone s p).holders hs
  unfold State.keyCancel
  split
  · next i hx =>
    split
    · exact holders_issue_setStep hs hf (by rw [hx]; rfl) rfl rfl _ _
    · split
      · obtain ⟨-, r, h, hloc⟩ := carried_of_settled_loop hs hf (i := i) (by rw [hx]; rfl)
        exact (h.returnConnect hloc hx).holders
      · exact herror
  · exact herror

theorem holders_keyCamp (hs : s.holdersOk) (hf : s.loopSettled p l) : (s.keyCamp p l).holdersOk := by
  have herror := (sameHold_errorTone s p).holders hs
  unfold State.keyCamp
  split
  · next i hx =>
    split
    · next ext _ =>
      split
      · next hroom =>
        obtain ⟨hflight, r, h, hloc⟩ := carried_of_settled_loop hs hf (i := i) (by rw [hx]; rfl)
        exact ((h.issueCamp hflight hroom.2 _).setStep 6).holders
      · exact herror
    · exact herror
  · exact herror

theorem holders_loopKey (hs : s.holdersOk) (hf : s.loopSettled p l) (k : KeyKind) (a : KeyArgs) : (s.loopKey p k a l).holdersOk := by
  have herror := (sameHold_errorTone s p).holders hs
  cases k with
  | loop => exact holders_keyLoop hs hf
  | release => exact holders_keyRelease hs hf
  | hold => exact holders_keyHold hs hf
  | park => exact holders_keyPark hs hf a
  | extend => exact holders_keyExtend hs hf a
  | cancel => exact holders_keyCancel hs hf
  | camp => exact holders_keyCamp hs hf
  | clear => exact holders_keyClear hs hf
  | _ => exact herror

end

/-! ### The key buffer (R73 to R75) -/

theorem loopSettled_of_not_waits {s : State} {p : Pos} {k : KeyMsg} (hw : s.keyWaits p k = false) (hk : KeyKind.isLoopKey k.kind = true)
    {l : LoopNo} (hl : loopOf k.args.loop = some l) : s.loopSettled p l := by
  intro i hi
  unfold State.keyWaits at hw
  rw [hk, hl, Bool.true_and] at hw
  simpa only [hi] using hw

/-- A key that does not wait (R75). -/
theorem holders_evalKey {s : State} {p : Pos} {k : KeyMsg} (hs : s.holdersOk) (hw : s.keyWaits p k = false) :
    (s.evalKey p k).holdersOk := by
  have herror := (sameHold_errorTone s p).holders hs
  have hloop (hk : KeyKind.isLoopKey k.kind = true) : (match loopOf k.args.loop with
      | some l => if (s.pos p).state.staffed then s.loopKey p k.kind k.args l else s.errorTone p
      | none => s.errorTone p).holdersOk := by
    split
    · next l hl =>
      split
      · exact holders_loopKey hs (loopSettled_of_not_waits hw hk hl) _ _
      · exact herror
    · exact herror
  obtain ⟨kind, a⟩ := k
  unfold State.evalKey
  split
  · cases kind with
    | opening => exact (sameHold_keyOpen s p).holders hs
    | closing => exact (sameHold_keyClose s p).holders hs
    | withdraw => exact (sameHold_keyWithdraw s p).holders hs
    | resume => exact (sameHold_keyResume s p).holders hs
    | review => exact (sameHold_keyReview s p).holders hs
    | answerNext => exact holders_keyAnswerNext hs p
    | pickup => exact holders_keyPickup hs p a
    | _ => exact hloop rfl
  · exact herror

theorem holders_drain {s : State} (hs : s.holdersOk) (p : Pos) (n : Nat) : (s.drain p n).holdersOk := by
  induction n generalizing s with
  | zero => exact hs
  | succ n ih =>
    unfold State.drain
    split
    · exact hs
    · next k rest _ =>
      split
      · exact hs
      · next hw =>
        exact ih (holders_evalKey ((sameHold_updPos rfl).holders hs) ((keyWaits_keys s p rest k).trans (Bool.eq_false_iff.2 hw)))

theorem holders_drainAll {s : State} (hs : s.holdersOk) : s.drainAll.holdersOk := holders_foldl (fun _ p h => holders_drain h p _) allPos hs

theorem holders_finishAll {s : State} (hs : s.holdersOk) : s.finishAll.holdersOk := holders_finishOffers (holders_drainAll hs)

theorem holders_press {s : State} (hs : s.holdersOk) (p : Pos) (k : KeyMsg) : (s.press p k).holdersOk := by
  have hpress : (if (s.pos p).keys.length < Config.keyPlaces then
      ((s.updPos p fun q => { q with keys := q.keys ++ [k] }).drainKeys p).finishOffers else s.errorTone p).holdersOk := by
    split
    · exact holders_finishOffers (holders_drain ((sameHold_updPos rfl).holders hs) p _)
    · exact (sameHold_errorTone s p).holders hs
  unfold State.press
  split
  · exact hs
  · exact hs
  · exact hpress

end Sys2Proof.Machine
end

section
/-! PROOFS. The expiries keep the holders sound (R31, R35, R36, R39, R55, R83, R84, R114, R119, R121, R63). -/

namespace Sys2Proof.Machine

/-! ### A call with no order in flight -/

section
variable {i : Slot} {s : State} {r : Record}

/-- A loop that waits for no CONNECT and is off the voice path. -/
theorem not_holdsVoice_of_settled {p : Pos} {l : LoopNo} (hf : s.inFlight i = false) (hx : s.loop p l = .held i ∨ s.loop p l = .recalling i) :
    s.holdsVoice p l = false := by
  rw [Bool.eq_false_iff]
  intro h
  obtain h | h := (holdsVoice_iff s p l).1 h
  · obtain hx | hx := hx <;> rw [hx] at h <;> cases h
  · obtain ⟨j, hj, p', l', hord⟩ := (retrieved_iff s p l).1 h
    have hij : j = i := by obtain hx | hx := hx <;> rw [hx] at hj <;> obtain hj | hj := hj <;> cases hj <;> rfl
    rw [hij] at hord
    rw [(inFlight_iff_ordered s i).2 ⟨_, hord⟩] at hf
    cases hf

theorem Carried.overflowTest (h : Carried i s r) : Carried i (s.overflowTest i) r := by
  unfold State.overflowTest
  split
  · simp only
    split
    · split
      · exact h.issueOther _ rfl rfl
      · exact h
    · exact h
  · exact h

theorem Carried.agingDue (h : Carried i s r) (d : Tick) : (s.agingDue i d).holdersOk := by
  unfold State.agingDue
  refine (Carried.overflowTest (h.updRec _ ?_ ?_ ?_)).holders
  all_goals
    simp only
    generalize (if r.aging < Config.agingCeiling then r.aging + 1 else r.aging) = steps
    split <;> rfl

theorem Carried.holdRecallDue (h : Carried i s r) (hf : s.inFlight i = false) (d : Tick) : (s.holdRecallDue i d).holdersOk := by
  cases hl : r.loc with
  | loop p l =>
    rw [holdRecallDue_loop h.live hl]
    have hset := h.setLoop (x := .recalling i) hl rfl fun hv => by
      rw [not_holdsVoice_of_settled (s := s.setLoop p l (.recalling i)) hf (.inr (by rw [loop_after_setLoop, if_pos rfl]))] at hv
      cases hv
    have hraised := hset.same (sameHold_raiseLoop _ p .holdRecall l)
    exact (hraised.fitted.setRec (r' := r.armAt .escalate (rearmed s.tick d s.timing.escalation)) rfl rfl rfl
      fun hm => absurd hraised.plain.mark hm).carried ⟨hraised.plain.mark, hraised.plain.claim, hraised.plain.orbit⟩ |>.holders
  | _ =>
    have hnone : s.holdRecallDue i d = s := by
      unfold State.holdRecallDue
      rw [(record?_eq_some s i).2 h.live, Option.map_some, hl]
    rw [hnone]
    exact h.holders

theorem Carried.escalateDue (h : Carried i s r) : (s.escalateDue i).holdersOk := by
  unfold State.escalateDue
  split
  · exact (h.recallFrom .hold _).choose_spec.holders
  · exact h.holders

theorem Carried.parkRecallDue (h : Carried i s r) : (s.parkRecallDue i).holdersOk := by
  unfold State.parkRecallDue
  split
  · exact (h.recallFrom .park _).choose_spec.holders
  · exact h.holders

theorem Carried.retrieveDue (h : Carried i s r) : (s.retrieveDue i).holdersOk :=
  ((h.issueOther .none rfl rfl).updRec (fun r => { r with timer := r.timer.map fun t => { t with spent := true } }) rfl rfl rfl).holders

end

/-- An offer mark goes, and its loop is IDLE. -/
theorem holders_unmark {s : State} {i : Slot} {r r' : Record} {p : Pos} {l : LoopNo} (hs : s.holdersOk) (hr : s.slot i = .live r)
    (hm : r.mark = some (p, l)) (hloc : r'.loc = r.loc) (hm' : r'.mark = none) (hc' : r'.claim = r.claim) :
    ((s.loopIdle p l).setSlot i (.live r')).holdersOk := by
  obtain ⟨h, ho, -⟩ := fitted_of_holders hs hr
  obtain ⟨-, hclaim, -⟩ := h.fits.marked (by rw [hm]; exact nofun)
  have hloop : s.loop p l = .alerting i := (h.fits.alerting p l).2 hm
  rw [hclaim] at hc'
  have hended : Fitted i ((s.loopIdle p l).setSlot i (.live r')) r' := by
    refine ⟨(h.but.loopIdle fun j hj => by rw [hloop] at hj; exact (Option.some.inj hj).symm).setSlot _, slot_setSlot_self _ _ _,
      h.fits.redealt (p := p) (l := l) (x := .idle) (loop_after_loopIdle s p l) (fun _ => rfl) rfl (by rw [hloop]; rfl) rfl
        (fun q m hq => ?_) (fun c hc => ?_) (fun q m => ?_) (fun q m => ?_) hloc (fun hc => absurd hm' hc) fun c hc => ?_⟩
    · rw [hm] at hq; cases hq; rfl
    · rw [hclaim] at hc; cases hc
    · rw [hm']; exact iff_of_false nofun fun hc => nomatch hc.1
    · rw [hc']; exact iff_of_false (fun ⟨_, hq, _⟩ => nomatch hq) fun hq => nomatch hq.1
    · rw [hc'] at hc; cases hc
  exact hended.holders ⟨fun hc => absurd hm' hc, fun c hc => (by rw [hc'] at hc; cases hc), ho.reserved⟩
    fun c hc => by rw [hc'] at hc; cases hc

/-- The end of an offer (R55). -/
theorem holders_offerDue {s : State} {i : Slot} {r : Record} (hs : s.holdersOk) (hr : s.slot i = .live r) : (s.offerDue i).holdersOk := by
  cases hm : r.mark with
  | none =>
    have hnone : s.offerDue i = s := by
      unfold State.offerDue
      rw [(record?_eq_some s i).2 hr]
      simp only [hm]
    rw [hnone]
    exact hs
  | some pl =>
    obtain ⟨p, l⟩ := pl
    have hsound := holders_unmark (r' := { r with mark := none, timer := s.agingTimer r, held := none }) hs hr hm rfl rfl rfl
    rw [offerDue_marked hr hm]
    simp only
    split
    · exact ((sameHold_updPos (p := p) rfl).trans (sameHold_raiseKind _ p .autoWithdrawn)).holders hsound
    · exact hsound

/-- An expiry of a record with no order in flight; a record with an offer mark has none but OFFER's. -/
theorem holders_deliver {s : State} {i : Slot} {r : Record} (hs : s.holdersOk) (hr : s.slot i = .live r) (hf : s.inFlight i = false)
    {pu : Purpose} (hm : pu ≠ .offer → r.mark = none) (d : Tick) : (s.deliver i pu d).holdersOk := by
  have hcarried (hne : pu ≠ .offer) : Carried i s r := carried_of_settled hs hr hf (hm hne)
  cases pu with
  | aging => exact (hcarried nofun).agingDue d
  | offer => exact holders_offerDue hs hr
  | holdRecall => exact (hcarried nofun).holdRecallDue hf d
  | escalate => exact (hcarried nofun).escalateDue
  | noAnswer => exact (hcarried nofun).retrieveDue
  | campTimeout => exact (hcarried nofun).retrieveDue
  | parkRecall => exact (hcarried nofun).parkRecallDue

/-- The expiry of a record's timer (R31, R35). -/
theorem holders_expiry {s : State} (hs : s.holdersOk) (i : Slot) (pu : Purpose) {finish : State → State}
    (hfin : ∀ u : State, u.holdersOk → (finish u).holdersOk) : (s.expiry i pu finish).holdersOk := by
  unfold State.expiry
  split
  case h_2 => exact hs
  case h_1 r hrec =>
    have hr := (record?_eq_some s i).1 hrec
    obtain ⟨h, ho, -⟩ := fitted_of_holders hs hr
    split
    · next hdue =>
      obtain ⟨t, ht, hpu, -, -⟩ := (due_iff r s.tick pu).1 hdue
      split
      · next hflight =>
        refine holders_updRec hs (fun r => r.hold pu) (fun _ => rfl) (fun _ => rfl) (fun _ => rfl) fun r' hr' hm => ?_
        rw [hr] at hr'
        cases hr'
        rw [ho.marked hm] at hflight
        cases hflight
      · next hflight =>
        split
        · refine hfin _ (holders_deliver hs hr (Bool.eq_false_iff.2 hflight) (fun hne => ?_) _)
          by_contra hm
          exact hne (hpu.symm.trans ((h.fits.marked hm).2.2 t ht))
        · exact hs
    · exact hs

/-! ### A held expiry (R36) -/

theorem mark_none_of_inPlace {s : State} {i : Slot} {r : Record} (h : Fits s i r) {pu : Purpose} (hp : s.inPlace r pu = true)
    (hne : pu ≠ .offer) : r.mark = none := by
  by_cases hq : r.loc = .queued
  · unfold State.inPlace at hp
    rw [hq] at hp
    cases pu with
    | aging => exact beq_iff_eq.1 hp
    | offer => exact absurd rfl hne
    | _ => cases hp
  · exact h.mark_none hq

theorem holders_settleHeld {s : State} (hs : s.holdersOk) (i : Slot) : (s.settleHeld i).holdersOk := by
  unfold State.settleHeld
  split
  case h_2 => exact hs
  case h_1 r hrec =>
    have hr := (record?_eq_some s i).1 hrec
    obtain ⟨h, ho, -⟩ := fitted_of_holders hs hr
    have hown {r' : Record} (hr' : s.slot i = .live r') : r' = r := by rw [hr] at hr'; cases hr'; rfl
    have hoffer (hm : r.mark ≠ none) : ∀ t, r.timer = some t → t.purpose = .offer := (h.fits.marked hm).2.2
    have hcleared : (s.updRec i fun r => { r with held := none }).holdersOk :=
      holders_updRec hs _ (fun _ => rfl) (fun _ => rfl) (fun _ => rfl) fun r' hr' hm x hx => by
        rw [hown hr'] at hm hx
        exact hoffer hm x hx
    split
    · next pu t _ ht =>
      split
      · next hplace =>
        split
        · exact hs
        · next hflight =>
          rw [updRec_slots_of_live hr] at hcleared ⊢
          exact holders_deliver hcleared (slot_setSlot_self _ _ _) (Bool.eq_false_iff.2 hflight)
            (fun hne => show r.mark = none from mark_none_of_inPlace h.fits hplace hne) _
      · refine holders_updRec hs (fun r => { r with held := none, timer := if t.spent then none else some t }) (fun _ => rfl)
          (fun _ => rfl) (fun _ => rfl) fun r' hr' hm x hx => ?_
        rw [hown hr'] at hm
        have hx : (if t.spent = true then none else some t) = some x := hx
        split at hx
        · cases hx
        · cases hx
          exact hoffer hm t ht
    · exact hcleared
    · exact hs

/-! ### Night entry (R63) -/

theorem holders_nightEntry {s : State} (hs : s.holdersOk) : s.nightEntry.holdersOk := by
  refine holders_foldl (fun t i ht => ?_) _ (SameHold.holders (.of_fields rfl rfl rfl rfl rfl) hs)
  split
  · next hdiverts =>
    unfold State.nightDiverts at hdiverts
    split at hdiverts
    · next r hr =>
      rw [Bool.and_eq_true, Bool.and_eq_true, beq_iff_eq, beq_iff_eq, Bool.not_eq_true'] at hdiverts
      obtain ⟨⟨hmark, -⟩, hf⟩ := hdiverts
      have h := carried_of_settled ht ((record?_eq_some t i).1 hr) hf hmark
      unfold State.nightDivert
      split
      · exact (h.issueOther _ rfl rfl).holders
      · exact ht
    · cases hdiverts
  · exact ht

end Sys2Proof.Machine
end

section
/-! PROOFS. A record after its order has left the list, before its owner acts (R132 step 1): what is known of it, and the work of
the owner that its slot needs. -/

namespace Sys2Proof.Machine

/-! ### The order that leaves -/

/-- An entry is its record's only one. -/
theorem ordered_of_nodup {s : State} (hn : (s.orders.map Entry.slot).Nodup) {e : Entry} (he : e ∈ s.orders) {o : Order}
    (h : s.ordered e.slot o) : o = e.order := by
  obtain ⟨e', he', hslot, rfl⟩ := h
  rw [List.inj_on_of_nodup_map hn he' he hslot]

theorem headEntry_mem {s : State} {e : Entry} (h : s.headEntry = some e) : e ∈ s.orders := by
  obtain ⟨i, -, hi⟩ := Option.bind_eq_some_iff.1 h
  exact (entry?_slot hi).2

/-- Without the CAMP of a call, there is room for the call itself (R101, R102). -/
theorem campSpare_dropEntry {s : State} (hs : CampFits s) (hn : (s.orders.map Entry.slot).Nodup) {e : Entry} (he : e ∈ s.orders)
    {ext : Digits} (ho : e.order = .camp ext) : CampSpare (s.dropEntry e.slot) ext := by
  obtain ⟨a, b, hab⟩ := List.append_of_mem he
  have hdrop : (s.dropEntry e.slot).orders = a ++ b := by
    rw [hab, List.map_append, List.map_cons, List.nodup_append] at hn
    obtain ⟨-, hb, hne⟩ := hn
    rw [List.nodup_cons] at hb
    have hkeepa : a.filter (fun x => x.slot != e.slot) = a := List.filter_eq_self.2 fun x hx =>
      bne_iff_ne.2 (hne _ (List.mem_map_of_mem hx) _ List.mem_cons_self)
    have hkeepb : b.filter (fun x => x.slot != e.slot) = b := List.filter_eq_self.2 fun x hx =>
      bne_iff_ne.2 fun hc => hb.1 (hc ▸ List.mem_map_of_mem hx)
    rw [State.dropEntry, hab, List.filter_append, List.filter_cons_of_neg (by simp), hkeepa, hkeepb]
  have hbefore : s.campOrders = a.filterMap (fun x => x.order.campExt?) ++ ext :: b.filterMap fun x => x.order.campExt? := by
    rw [campOrders_eq, hab, List.filterMap_append, List.filterMap_cons_some (by rw [ho]; rfl)]
  have hafter : (s.dropEntry e.slot).campOrders = a.filterMap (fun x => x.order.campExt?) ++ b.filterMap fun x => x.order.campExt? := by
    rw [campOrders_eq, hdrop, List.filterMap_append]
  have hcount : ((s.dropEntry e.slot).campOrders.filter fun x => x == ext).length + 1 =
      (s.campOrders.filter fun x => x == ext).length := by
    rw [hbefore, hafter, List.filter_append, List.filter_append, List.filter_cons_of_pos (p := fun x => x == ext) (beq_iff_eq.2 rfl), List.length_append,
      List.length_append, List.length_cons]
    omega
  have hsub : (s.dropEntry e.slot).campOrders.Sublist s.campOrders := by
    rw [hbefore, hafter]
    exact (List.sublist_cons_self _ _).append_left _
  refine ⟨campFits_of_orders hs rfl hsub, fun e' he' hx => ?_, ?_, ?_⟩
  · have := hs.places e' he'
    rw [hx] at this
    omega
  · have := hs.asked ext
    omega
  · have hbound := hs.entries
    rw [camp_entries_eq hs.exts] at hbound
    refine (Finset.card_le_card fun x hx => ?_).trans hbound
    obtain rfl | hx := Finset.mem_insert.1 hx
    · refine Finset.mem_union_right _ (List.mem_toFinset.2 ?_)
      rw [hbefore]
      exact List.mem_append_right _ List.mem_cons_self
    · exact (Finset.mem_union.1 hx).elim (fun h => Finset.mem_union_left _ h) fun h =>
        Finset.mem_union_right _ (List.mem_toFinset.2 (hsub.subset (List.mem_toFinset.1 h)))

/-- A record whose order has just left the list, in a state that was sound with it. -/
structure Answering (i : Slot) (t : State) (r : Record) (o : Order) : Prop where
  fitted : Fitted i t r
  settled : t.inFlight i = false
  mark : r.mark = none
  granted : ∀ c, r.claim = some c → c.granted = true → ∃ p l, o = .connect p l
  reserved : ∀ u, t.orbit u = .reserved i → o = .hold
  waits : ∀ c, r.claim = some c → c.granted = false → (∃ u, r.loc = .parked u) ∨ ∃ u, t.orbit u = .reserved i
  path : ∀ p l q m, r.loc = .loop p l → o = .connect q m → t.loop p l = .held i ∨ t.loop p l = .recalling i →
    ∀ n, n ≠ l → t.holdsVoice p n = false
  spare : ∀ ext, o = .camp ext → CampSpare t ext

theorem holdsVoice_dropEntry {s : State} {i : Slot} {p : Pos} {l : LoopNo} (h : s.holdsVoice p l = false) :
    (s.dropEntry i).holdsVoice p l = false := by
  rw [Bool.eq_false_iff] at h ⊢
  refine fun hc => h ?_
  rw [holdsVoice_iff, retrieved_iff] at hc ⊢
  exact hc.imp_right fun ⟨j, hj, p', l', hord⟩ => ⟨j, hj, p', l', ((ordered_dropEntry s i j _).1 hord).1⟩

theorem answering_of_holders {s : State} (hs : s.holdersOk) (hn : (s.orders.map Entry.slot).Nodup) {e : Entry} (he : e ∈ s.orders)
    {r : Record} (hr : s.slot e.slot = .live r) : Answering e.slot (s.dropEntry e.slot) r e.order := by
  obtain ⟨h, ho, hw⟩ := fitted_of_holders hs hr
  have hflight : s.inFlight e.slot = true := (inFlight_iff s e.slot).2 ⟨e, he, rfl⟩
  refine ⟨⟨h.but.dropEntry, hr, fits_of_same (t := s.dropEntry e.slot) h.fits (fun _ _ => rfl) (fun _ => rfl) rfl rfl rfl rfl
      fun hm => (h.fits.marked hm).2.2⟩, inFlight_dropEntry s e.slot, ?_, fun c hc hg => ?_, fun u hu => ?_, fun c hc hg => (hw c hc hg).2,
    fun p l q m _ ho' hx n hne => ?_, fun ext ho' => campSpare_dropEntry h.but.camp hn he ho'⟩
  · by_contra hm
    rw [ho.marked hm] at hflight
    cases hflight
  · obtain ⟨p, l, hord⟩ := ho.granted c hc hg
    exact ⟨p, l, (ordered_of_nodup hn he hord).symm⟩
  · exact (ordered_of_nodup hn he (ho.reserved u hu)).symm
  · refine holdsVoice_dropEntry (Bool.eq_false_iff.2 fun hc => hne ?_)
    exact (h.but.voice p n l).1 hc ((holdsVoice_iff s p l).2 (.inr ((retrieved_iff s p l).2 ⟨e.slot, hx, q, m, e, he, rfl, ho'⟩)))

namespace Answering
variable {i : Slot} {t : State} {r : Record} {o : Order}

/-- With no claim and no reservation the call is in no dealing but its holder's. -/
theorem carried (h : Answering i t r o) (hc : r.claim = none) (hu : ∀ u, t.orbit u ≠ .reserved i) : Carried i t r :=
  h.fitted.carried ⟨h.mark, hc, hu⟩

/-- A call that is neither QUEUED nor PARKED, without a reservation. -/
theorem carried_of_not_hold (h : Answering i t r o) (hq : r.loc ≠ .queued) (hp : ∀ u, r.loc ≠ .parked u)
    (hu : ∀ u, t.orbit u ≠ .reserved i) : Carried i t r := by
  refine h.carried ?_ hu
  by_contra hc
  obtain ⟨c, hc⟩ := Option.ne_none_iff_exists'.1 hc
  cases hg : c.granted with
  | true =>
    obtain hl | ⟨u, hl⟩ := h.fitted.fits.claimed c hc hg
    · exact hq hl
    · exact hp u hl
  | false =>
    obtain ⟨u, hl⟩ | ⟨u, hx⟩ := h.waits c hc hg
    · exact hp u hl
    · exact hu u hx

theorem not_reserved (h : Answering i t r o) (ho : o ≠ .hold) (u : OrbitNo) : t.orbit u ≠ .reserved i := fun hu => ho (h.reserved u hu)

/-- A record on which the owner does nothing, without a GRANTED claim and a reservation. -/
theorem settling (h : Answering i t r o) (hc : ∀ c, r.claim = some c → c.granted = false) (hu : ∀ u, t.orbit u ≠ .reserved i) :
    Settling i t where
  live r' hr' := by
    rw [h.fitted.live] at hr'
    cases hr'
    exact ⟨h.fitted, ⟨fun hm => absurd h.mark hm, fun c hcl hg => (by rw [hc c hcl] at hg; cases hg), fun u hx => absurd hx (hu u)⟩,
      fun _ _ _ => .inl h.settled⟩
  other hn := absurd h.fitted.live (hn r)

end Answering

/-! ### A retired slot -/

theorem retire_not_live {s : State} {i : Slot} {r : Record} (h : s.slot i = .live r) (gone : Bool) (r' : Record) :
    (s.retire i gone).slot i ≠ .live r' := by
  have hframe := retire_frame h gone
  generalize (s.retire i gone).positions = ps at hframe
  rw [hframe]
  show ((s.letOut i r).freeSlot i r.ref).slot i ≠ _
  obtain ⟨e, -, -, hf⟩ | ⟨e, -, -, hf⟩ | ⟨-, hf⟩ := freeSlot_cases (s.letOut i r) i r.ref <;> rw [hf, slot_setSlot_self] <;> exact nofun

theorem Fitted.retire {i : Slot} {s : State} {r : Record} (h : Fitted i s r) (gone : Bool) : Settling i (s.retire i gone) where
  live r' hr' := absurd hr' (retire_not_live h.live gone r')
  other _ := retire_holders h.but h.live h.fits gone

/-! ### Claims (R22) -/

section
variable {i : Slot} {s : State} {r : Record} {c : Claim}

/-- What refers to a call of a granted claim, after it left its holder for its loop. -/
theorem Fits.talked {t : State} {r' : Record} {p : Pos} {l : LoopNo} (h : Fits s i r) (hc : r.claim = some c) (hp : c.pos = p) (hl : c.loop = l)
    (hplace : r.loc = .queued ∨ ∃ o, r.loc = .parked o)
    (hloops : ∀ q m, t.loop q m = if (q, m) = (p, l) then .talk i else s.loop q m) (horbits : ∀ u, (t.orbit u).names i = false)
    (hcamps : ∀ ext, ¬ t.campsOn i ext) (hloc : r'.loc = .loop p l) (hm : r'.mark = none) (hc' : r'.claim = none) : Fits t i r' := by
  have hmark := h.mark_none_of_claim hc
  have hnotloop (q : Pos) (m : LoopNo) : r.loc ≠ .loop q m := by
    obtain hl | ⟨o, hl⟩ := hplace <;> rw [hl] <;> exact nofun
  have hnames {x : Orbit} {u : OrbitNo} (hx : x.names i = true) : t.orbit u ≠ x := fun hu => by
    have := horbits u
    rw [hu, hx] at this
    cases this
  refine ⟨fun q m => ?_, fun q m => ?_, fun q m => ?_, fun u => ?_, fun ext => ?_, fun m u hu => ?_, fun u hu => ?_, fun u v hu => ?_,
    fun hne => absurd hm hne, fun d hd => ?_⟩
  · rw [hm, hloops]
    refine iff_of_false (fun hx => ?_) nofun
    split at hx
    · cases hx
    · have := (h.alerting q m).1 hx
      rw [hmark] at this
      cases this
  · rw [hc', hloops]
    refine iff_of_false (fun hx => ?_) fun ⟨_, hx, _⟩ => nomatch hx
    split at hx
    · cases hx
    · next hne =>
      obtain ⟨d, hd, rfl, rfl⟩ := (h.connecting q m).1 hx
      rw [hc] at hd
      cases hd
      exact hne (by rw [hp, hl])
  · rw [hloc, hloops]
    by_cases hqm : (q, m) = (p, l)
    · cases hqm
      rw [if_pos rfl]
      exact iff_of_true rfl rfl
    · rw [if_neg hqm]
      refine iff_of_false (fun hx => hnotloop q m ((h.held q m).1 hx)) fun hx => hqm ?_
      cases hx
      rfl
  · rw [hloc]
    exact iff_of_false (hnames ((names_iff _ _).2 (.inr rfl))) nofun
  · rw [hloc]
    exact iff_of_false (hcamps ext) nofun
  · rw [hloc] at hu
    cases hu
  · exact absurd hu (hnames ((names_iff _ _).2 (.inl rfl)))
  · rw [horbits u] at hu
    cases hu
  · rw [hc'] at hd
    cases hd

/-- DONE of a granted claim (R22). -/
theorem Fitted.claimDone (h : Fitted i s r) (hc : r.claim = some c) (hg : c.granted = true) (hu : ∀ u, s.orbit u ≠ .reserved i) :
    ∃ r', Carried i (s.claimDone i c) r' := by
  have hplace := h.fits.claimed c hc hg
  have hloop : s.loop c.pos c.loop = .connecting i := (h.fits.connecting _ _).2 ⟨c, hc, rfl, rfl⟩
  have hnotloop (q : Pos) (m : LoopNo) : r.loc ≠ .loop q m := by
    obtain hl | ⟨o, hl⟩ := hplace <;> rw [hl] <;> exact nofun
  have hlive : (s.leaveHolder i).slot i = .live r := by rw [leaveHolder_slot]; exact h.live
  have hloops (q : Pos) (m : LoopNo) : (s.leaveHolder i).loop q m = s.loop q m := by
    rw [loop_leaveHolder h.live, if_neg (hnotloop q m)]
  have hleft : HoldBut i (s.leaveHolder i) := h.but.leaveHolder fun r' hr' => by
    rw [h.live] at hr'
    cases hr'
    exact h.fits
  have hpath : ((s.leaveHolder i).loop c.pos c.loop).onVoicePath = true := by rw [hloops, hloop]; rfl
  have horbits (u : OrbitNo) : ((s.leaveHolder i).orbit u).names i = false := by
    rw [orbit_leaveHolder h.live]
    split
    · rfl
    · next hnot =>
      rw [Bool.eq_false_iff]
      intro hn
      obtain hx | hx := (names_iff _ _).1 hn
      · exact hu u hx
      · exact hnot ⟨⟨u, (h.fits.parked u).1 hx⟩, hn⟩
  unfold State.claimDone
  rw [updRec_slots_of_live hlive]
  refine ⟨_, Fitted.carried ⟨(hleft.setSlot _).setLoop (fun j hj => ?_) rfl fun _ => holdsVoice_of_path hpath,
    slot_setSlot_self _ _ _, h.fits.talked hc rfl rfl hplace (fun q m => ?_) horbits (fun ext hx => ?_) rfl (h.fits.mark_none_of_claim hc) rfl⟩
    ⟨h.fits.mark_none_of_claim hc, rfl, fun u hx => ?_⟩⟩
  · have hj : ((s.leaveHolder i).loop c.pos c.loop).slot? = some j := hj
    rw [hloops, hloop] at hj
    exact (Option.some.inj hj).symm
  · rw [loop_after_setLoop]
    split
    · rfl
    · exact hloops q m
  · exact ((campsOn_leaveHolder h.live h.fits i ext).1 hx).2 rfl
  · exact Bool.false_ne_true ((horbits u).symm.trans ((names_iff _ _).2 (.inl hx)))

/-- A refused claim (R22). -/
theorem Fitted.claimRefused (h : Fitted i s r) (hc : r.claim = some c) (hu : ∀ u, s.orbit u ≠ .reserved i) :
    ∃ r', Carried i (s.claimRefused i c) r' := by
  have hm := h.fits.mark_none_of_claim hc
  have hended {r' : Record} (hl : r'.loc = r.loc) (hm' : r'.mark = none) (hc' : r'.claim = none) :
      Carried i (((s.setSlot i (.live r')).loopIdle c.pos c.loop).raiseLoop c.pos .orderFailed c.loop) r' :=
    ((h.unclaim hc hl hm' hc').carried ⟨hm', hc', hu⟩).same (sameHold_raiseLoop _ _ _ _)
  unfold State.claimRefused
  simp only
  rw [updRec_slots_of_live h.live, (record?_eq_some _ i).2 (slot_setSlot_self _ _ _)]
  simp only
  split
  · rw [armAging_timer (slot_setSlot_self _ _ _), setSlot_setSlot]
    exact ⟨_, hended rfl hm rfl⟩
  · exact ⟨_, hended rfl hm rfl⟩

end

end Sys2Proof.Machine
end

section
/-! PROOFS. The owner's action on a response leaves its slot sound but for a WAITING claim (R130), which the re-examination settles
(R21, R132). -/

namespace Sys2Proof.Machine

/-! ### The places a call goes to -/

section
variable {i : Slot} {s : State} {r : Record}

theorem Loose.extendTo (h : Loose i s r) (hm : r.mark = none) (hc : r.claim = none) (ext : Digits) (owner : Option Pos) :
    ∃ r', Carried i (s.extendTo i ext owner) r' := by
  rw [extendTo_eq h.live]
  exact ⟨_, h.put trivial hm hc⟩

theorem Loose.campAt (h : Loose i s r) (hm : r.mark = none) (hc : r.claim = none) {ext : Digits} (room : CampSpare s ext) :
    ∃ r', Carried i (s.campAt i ext) r' := by
  rw [campAt_eq h.live]
  exact ⟨_, h.camp room rfl hm hc⟩

/-- A call of the rescue set is in no holder but the set itself. -/
theorem Carried.loose_of_rescue {m : Rescue} (h : Carried i s r) (hl : r.loc = .rescue m) : Loose i s r := by
  have hleft := h.leave
  have hself : s.leaveHolder i = s := by
    unfold State.leaveHolder
    simp only [(record?_eq_some s i).2 h.live, hl]
  rwa [hself] at hleft

theorem Carried.retire (h : Carried i s r) (gone : Bool) : Settling i (s.retire i gone) := h.fitted.retire gone

theorem Carried.orderFailed (h : Carried i s r) (p : Pos) (l : LoopNo) : Carried i (s.orderFailed p l) r := h.same (sameHold_raiseLoop s p _ l)

theorem Carried.settling_recallFrom (h : Carried i s r) (why : RecallReason) (owner : Option Pos) : Settling i (s.recallFrom i why owner) :=
  .of_carried (h.recallFrom why owner).choose_spec

/-- A timer from now, or from a deadline. -/
theorem Carried.arm (h : Carried i s r) (pu : Purpose) (d : Tick) : ∃ r', Carried i (s.updRec i fun r => r.armAt pu d) r' :=
  ⟨_, h.updRec (fun r => r.armAt pu d) rfl rfl rfl⟩

theorem campSpare_same {t : State} {ext : Digits} (h : CampSpare s ext) (hcamp : t.camp = s.camp) (ho : t.orders = s.orders) : CampSpare t ext := by
  have hask : t.campOrders = s.campOrders := by unfold State.campOrders; rw [ho]
  refine ⟨campFits_same hcamp ho h.fits, ?_, ?_, ?_⟩
  · rw [hcamp, hask]; exact h.places
  · rw [hask]; exact h.asked
  · unfold State.campExts; rw [hcamp, hask]; exact h.entries

end

/-! ### Orders of a call on a loop (R78 to R80, R94 to R105) -/

namespace Answering
variable {i : Slot} {t : State} {r : Record} {o : Order} {p : Pos} {l : LoopNo}

/-- A call on a loop, its order not a HOLD. -/
theorem carried_loop (h : Answering i t r o) (hl : r.loc = .loop p l) (ho : o ≠ .hold) : Carried i t r :=
  h.carried_of_not_hold (by rw [hl]; exact nofun) (by rw [hl]; exact nofun) (h.not_reserved ho)

theorem retrieval (h : Answering i t r o) (hl : r.loc = .loop p l) {q : Pos} {m : LoopNo} (ho : o = .connect q m)
    (hx : t.loop p l = .held i ∨ t.loop p l = .recalling i) (a : Answer) : Settling i (t.retrievalAnswer p l i a) := by
  have hc := h.carried_loop hl (by rw [ho]; exact nofun)
  cases a with
  | refused b => exact .of_carried (hc.orderFailed p l)
  | done b =>
    have hheld : (t.loop p l).held? = some i := by obtain hx | hx := hx <;> rw [hx] <;> rfl
    have hset : (t.setLoop p l (.talk i)).loop p l = .talk i := by rw [loop_after_setLoop, if_pos rfl]
    have hbut : HoldBut i (t.setLoop p l (.talk i)) :=
      hc.but.newLoop (touch_setLoop (only_of_held hheld) fun j hj => (Option.some.inj hj).symm) rfl rfl
        (loop_after_setLoop t p l _) (fun _ n hn => h.path p l q m hl ho hx n hn) nofun
    have hfits : Fits (t.setLoop p l (.talk i)) i r := by
      refine ⟨fun q' m' => ?_, fun q' m' => ?_, fun q' m' => ?_, hc.fits.parked, hc.fits.camped, hc.fits.rescued,
        fun u hu => absurd hu (hc.plain.orbit u), hc.fits.once, hc.fits.marked, hc.fits.claimed⟩
      · rw [hc.plain.mark, loop_after_setLoop]
        refine iff_of_false (fun hy => ?_) nofun
        split at hy
        · cases hy
        · have := (hc.fits.alerting q' m').1 hy
          rw [hc.plain.mark] at this
          cases this
      · rw [← hc.fits.connecting, loop_after_setLoop]
        split
        · next hqm =>
          cases hqm
          exact iff_of_false nofun fun hy => by rw [hy] at hheld; cases hheld
        · exact Iff.rfl
      · rw [loop_after_setLoop]
        split
        · next hqm =>
          cases hqm
          exact iff_of_true rfl hl
        · exact hc.fits.held q' m'
    have hcarried : Carried i (t.setLoop p l (.talk i)) r := ⟨hbut, hc.live, hfits, hc.plain.mark, hc.plain.claim, hc.plain.orbit⟩
    exact .of_carried ((hcarried.updRec Record.disarm rfl rfl rfl).same
      (sameHold_updPos (p := p) (f := fun q => q.dropKindAt l .holdRecall) rfl))

end Answering

namespace Carried
variable {i : Slot} {t : State} {r : Record} {p : Pos} {l : LoopNo}

theorem extendToTalk (h : Carried i t r) (hl : r.loc = .loop p l) (hx : (t.loop p l).onVoicePath = true) :
    Carried i (t.extendToTalk p l i) { r with step := 0, dest := none } := by
  have hupd := h.updRec (fun r => { r with step := 0, dest := none }) rfl rfl rfl
  refine hupd.setLoop hl rfl fun _ => holdsVoice_of_path ?_
  rwa [updRec_loop]

theorem splitAnswer (h : Carried i t r) (hl : r.loc = .loop p l) (hx : t.loop p l = .extend i) (rec : Record) (a : Answer) :
    Settling i (t.splitAnswer p l i rec a) := by
  cases a with
  | done b => exact .of_carried ((h.setStep 2).issueOther _ rfl rfl)
  | refused b => exact .of_carried ((h.extendToTalk hl (by rw [hx]; rfl)).orderFailed p l)

theorem ringAnswer (h : Carried i t r) (hl : r.loc = .loop p l) (hx : t.loop p l = .extend i) (a : Answer) :
    Settling i (t.ringAnswer p l i a) := by
  have hback (k : AlertKind) : Settling i ((t.raiseLoop p k l).returnConnect p l i) :=
    .of_carried ((h.same (sameHold_raiseLoop t p k l)).returnConnect hl (((sameHold_raiseLoop t p k l).loops p l).trans hx))
  cases a with
  | done b =>
    unfold State.ringAnswer
    simp only
    split
    · exact .of_carried (h.setStep 3)
    · exact .of_carried ((h.setStep 4).same (sameHold_raiseLoop _ p _ l))
    · exact hback _
  | refused b => exact hback _

theorem transferAnswer (h : Carried i t r) (p : Pos) (l : LoopNo) (rec : Record) (e : Entry) (a : Answer) :
    Settling i (t.transferAnswer p l i rec e a) := by
  unfold State.transferAnswer
  split
  · exact (h.same (sameHold_noteFor _ _ _ _ _)).retire false
  · exact .of_carried ((h.setStep 5).orderFailed p l)
  · exact .of_carried ((h.same (sameHold_noteFor _ _ _ _ _)).leave.extendTo h.plain.mark h.plain.claim _ _).choose_spec
  · exact .of_carried ((h.setStep 3).orderFailed p l)

theorem campAnswer (h : Carried i t r) (hl : r.loc = .loop p l) {ext : Digits} (room : CampSpare t ext) (a : Answer) :
    Settling i (t.campAnswer p l i ext a) := by
  cases a with
  | done b =>
    have hleft := (h.same (sameHold_noteFor t p l (some i) (campedText ext))).leave
    refine .of_carried (hleft.campAt h.plain.mark h.plain.claim (campSpare_same room ?_ ?_)).choose_spec
    · rw [leaveHolder_loop (s := t.noteFor p l (some i) (campedText ext)) ((record?_eq_some t i).2 h.live) hl]
      rfl
    · exact leaveHolder_orders _ i
  | refused b => exact .of_carried ((h.setStep 4).orderFailed p l)

theorem dropDestAnswer (h : Carried i t r) (hl : r.loc = .loop p l) (hx : t.loop p l = .extend i) (a : Answer) :
    Settling i (t.dropDestAnswer p l i a) := by
  cases a with
  | done b => exact .of_carried (h.returnConnect hl hx)
  | refused b =>
    exact .of_carried ((h.orderFailed p l).returnConnect hl (((sameHold_raiseLoop t p _ l).loops p l).trans hx))

theorem returnAnswer (h : Carried i t r) (hl : r.loc = .loop p l) (hx : t.loop p l = .extend i) (a : Answer) :
    Settling i (t.returnAnswer p l i a) := by
  have hpath : (t.loop p l).onVoicePath = true := by rw [hx]; rfl
  cases a with
  | done b => exact .of_carried (h.extendToTalk hl hpath)
  | refused b =>
    have hupd := h.updRec (fun r => { r with step := 0, dest := none }.disarm) rfl rfl rfl
    have hset := hupd.setLoop (x := .locked i) hl rfl fun _ => holdsVoice_of_path (by rwa [updRec_loop])
    exact .of_carried ((hset.same (sameHold_raiseLoop _ p _ l)).same (sameHold_noteFor _ _ _ _ _))

end Carried

/-! ### HOLD and the reservation (R79, R81, R112) -/

/-- What refers to a call whose reservation has been given up. -/
theorem Fits.unreserved {s t : State} {i : Slot} {r r' : Record} (h : Fits s i r) (hm : r.mark = none)
    (hloops : ∀ p l, t.loop p l = s.loop p l) (horbits : ∀ u, t.orbit u = if s.orbit u = .reserved i then .empty else s.orbit u)
    (hcamp : t.camp = s.camp) (hloc : r'.loc = r.loc ∨ r.loc.isRescue = true ∧ r'.loc.isRescue = true)
    (hq : r.loc ≠ .queued ∧ ∀ u, r.loc ≠ .parked u)
    (hres : ∀ m, r'.loc = .rescue m → m.orbit = none) (hm' : r'.mark = none) (hc : r'.claim = r.claim) : Fits t i r' := by
  have hcamps (ext : Digits) : t.campsOn i ext ↔ s.campsOn i ext := by unfold State.campsOn; rw [hcamp]
  have hat {x : Location} (hx : x.isRescue = false) : r'.loc = x ↔ r.loc = x := by
    obtain hl | ⟨h1, h2⟩ := hloc
    · rw [hl]
    · refine iff_of_false (fun hc => ?_) fun hc => ?_
      · rw [hc, hx] at h2; cases h2
      · rw [hc, hx] at h1; cases h1
  have hfree (u : OrbitNo) : (t.orbit u).names i = false := by
    rw [Bool.eq_false_iff, horbits]
    intro hn
    split at hn
    · cases hn
    · next hne =>
      obtain hx | hx := (names_iff _ _).1 hn
      · exact hne hx
      · exact hq.2 u ((h.parked u).1 hx)
  have hnot {x : Orbit} {u : OrbitNo} (hx : x.names i = true) : t.orbit u ≠ x := fun hu =>
    Bool.false_ne_true ((hfree u).symm.trans (hu ▸ hx))
  refine ⟨fun p l => ?_, fun p l => ?_, fun p l => ?_, fun u => ?_, fun ext => ?_, fun m u hr hu => ?_, fun u hu => ?_, fun u v hu => ?_,
    fun hne => absurd hm' hne, fun c hcl hg => ?_⟩
  · rw [hloops, hm', ← hm]; exact h.alerting p l
  · rw [hloops, hc]; exact h.connecting p l
  · rw [hloops, hat rfl]; exact h.held p l
  · rw [hat rfl]
    exact iff_of_false (hnot ((names_iff _ _).2 (.inr rfl))) (hq.2 u)
  · rw [hcamps, hat rfl]; exact h.camped ext
  · rw [hres m hr] at hu
    cases hu
  · exact absurd hu (hnot ((names_iff _ _).2 (.inl rfl)))
  · rw [hfree u] at hu
    cases hu
  · obtain hl | ⟨u, hl⟩ := h.claimed c (hc ▸ hcl) hg
    · exact absurd hl hq.1
    · exact absurd hl (hq.2 u)

theorem reservation_cases_of_fits {s : State} {i : Slot} {r : Record} (h : Fits s i r) :
    (s.reservation i = none ∧ ∀ x, s.orbit x ≠ .reserved i) ∨
      ∃ o, s.reservation i = some o ∧ ∀ x, s.orbit x = .reserved i ↔ x = o :=
  reservation_cases fun x y hx hy => h.once x y ((names_iff _ _).2 (.inl hx)) ((names_iff _ _).2 (.inl hy))

namespace Answering
variable {i : Slot} {t : State} {r : Record} {o : Order} {p : Pos} {l : LoopNo}

/-- A reserved call has no GRANTED claim. -/
theorem not_granted (h : Answering i t r o) (ho : o = .hold) {c : Claim} (hc : r.claim = some c) : c.granted = false := by
  rw [Bool.eq_false_iff]
  intro hg
  obtain ⟨q, m, hx⟩ := h.granted c hc hg
  rw [ho] at hx
  cases hx

/-- The call of a HOLD goes to its orbit, and a WAITING claim with it. -/
theorem parked (h : Answering i t r o) (ho : o = .hold) (hloc : (∃ p l, r.loc = .loop p l) ∨ ∃ m, r.loc = .rescue m) {u : OrbitNo}
    (hu : t.orbit u = .reserved i) (p : Pos) : Settling i ((t.leaveHolder i).placeInOrbit i u p) where
  live r' hr' := by
    have hnames : (t.orbit u).names i = true := (names_iff _ _).2 (.inl hu)
    obtain ⟨r1, hpark, hloc', hclaim, hmark⟩ := h.fitted.park hloc (.inr hu) (fun v hv => h.fitted.fits.once v u hv hnames) p
    rw [hpark.live] at hr'
    cases hr'
    have hf : ((t.leaveHolder i).placeInOrbit i u p).inFlight i = false := by
      rw [placeInOrbit_eq (by rw [leaveHolder_slot]; exact h.fitted.live)]
      show (t.leaveHolder i).orders.any _ = false
      rw [leaveHolder_orders]
      exact h.settled
    refine ⟨hpark, ⟨fun hm => absurd hmark hm, fun c hc hg => ?_, fun v hv => ?_⟩, fun _ _ _ => .inl hf⟩
    · rw [h.not_granted ho (hclaim ▸ hc)] at hg
      cases hg
    · exact absurd hloc' ((hpark.fits.not_queued_of_reserved hv).2.1 u)
  other hn := by
    have hnames : (t.orbit u).names i = true := (names_iff _ _).2 (.inl hu)
    obtain ⟨r1, hpark, -⟩ := h.fitted.park hloc (.inr hu) (fun v hv => h.fitted.fits.once v u hv hnames) p
    exact absurd hpark.live (hn r1)

/-- The call of a HOLD stays on its loop, its reservation given up, and a WAITING claim stays too. -/
theorem unparked (h : Answering i t r o) (ho : o = .hold) (hl : r.loc = .loop p l) {u : OrbitNo}
    (hu : ∀ x, t.orbit x = .reserved i ↔ x = u) : Settling i ((t.setOrbit u .empty).orderFailed p l) := by
  have horbits (x : OrbitNo) : (t.setOrbit u .empty).orbit x = if t.orbit x = .reserved i then .empty else t.orbit x := by
    rw [orbit_setOrbit]
    refine if_congr ?_ rfl rfl
    rw [hu x]
    exact eq_comm
  have hfits : Fits (t.setOrbit u .empty) i r :=
    h.fitted.fits.unreserved h.mark (fun _ _ => rfl) horbits rfl (.inl rfl) ⟨by rw [hl]; exact nofun, by rw [hl]; exact nofun⟩
      (fun m hm => by rw [hl] at hm; cases hm) h.mark rfl
  have hfitted : Fitted i ((t.setOrbit u .empty).orderFailed p l) r :=
    Fitted.same ⟨h.fitted.but.setOrbit (.inr ((names_iff _ _).2 (.inl ((hu u).2 rfl)))) (.inl rfl), h.fitted.live, hfits⟩
      (sameHold_raiseLoop _ p _ l)
  refine ⟨fun r' hr' => ?_, fun hn => absurd hfitted.live (hn r)⟩
  rw [hfitted.live] at hr'
  cases hr'
  refine ⟨hfitted, ⟨fun hm => absurd h.mark hm, fun c hc hg => ?_, fun v hv => ?_⟩, fun _ _ _ => .inl h.settled⟩
  · rw [h.not_granted ho hc] at hg
    cases hg
  · have hv : (t.setOrbit u .empty).orbit v = .reserved i := hv
    rw [horbits] at hv
    split at hv
    · cases hv
    · next hne => exact absurd hv hne

theorem hold (h : Answering i t r o) (ho : o = .hold) (hl : r.loc = .loop p l) (a : Answer) :
    Settling i (t.holdAnswer p l i a) := by
  obtain ⟨hnone, hfree⟩ | ⟨u, hsome, hu⟩ := reservation_cases_of_fits h.fitted.fits
  · have hc := h.carried_of_not_hold (by rw [hl]; exact nofun) (by rw [hl]; exact nofun) hfree
    unfold State.holdAnswer
    rw [hnone]
    cases a with
    | done b =>
      have hset := hc.setLoop (x := .held i) hl rfl fun hv => by
        rw [not_holdsVoice_of_settled (s := t.setLoop p l (.held i)) h.settled (.inl (by rw [loop_after_setLoop, if_pos rfl]))] at hv
        cases hv
      exact .of_carried (hset.arm .holdRecall _).choose_spec
    | refused b => exact .of_carried (hc.orderFailed p l)
  · unfold State.holdAnswer
    rw [hsome]
    cases a with
    | done b =>
      have hnoted : Answering i (t.noteFor p l (some i) (parkedText u)) r o :=
        ⟨h.fitted.same (sameHold_noteFor _ _ _ _ _), h.settled, h.mark, h.granted, h.reserved, h.waits,
          fun p' l' q m h1 h2 h3 n hn => ?_, fun ext he => by rw [ho] at he; cases he⟩
      · exact hnoted.parked ho (.inl ⟨p, l, hl⟩) ((hu u).2 rfl) p
      · rw [ho] at h2; cases h2
    | refused b => exact h.unparked ho hl hu

theorem loop (h : Answering i t r o) (hl : r.loc = .loop p l) {e : Entry} (he : e.order = o) (a : Answer) :
    Settling i (t.loopAnswer p l i r e a) := by
  have hheld := (h.fitted.fits.held p l).2 hl
  by_cases htalk : o = .hold ∧ t.loop p l = .talk i
  · obtain ⟨ho, hx⟩ := htalk
    have hact : t.loopAnswer p l i r e a = t.holdAnswer p l i a := by
      unfold State.loopAnswer
      rw [hx, he, ho]
    rw [hact]
    exact h.hold ho hl a
  · have hfree (u : OrbitNo) : t.orbit u ≠ .reserved i := fun hu => by
      obtain ⟨q, m, hq, htk⟩ | ⟨m, hq⟩ := h.fitted.fits.reserved u hu
      · have := hl.symm.trans hq
        cases this
        exact htalk ⟨h.reserved u hu, htk⟩
      · have := hl.symm.trans hq.1
        cases this
    have hc := h.carried_of_not_hold (by rw [hl]; exact nofun) (by rw [hl]; exact nofun) hfree
    have hown {x : LoopState} {j : Slot} (hx : t.loop p l = x) (hj : x.held? = some j) : j = i := by
      rw [hx, hj] at hheld
      exact Option.some.inj hheld
    have hrelease : Settling i (t.releaseAnswer p l i a) := by
      cases a with
      | done b => exact hc.retire false
      | refused b => exact .of_carried (hc.orderFailed p l)
    unfold State.loopAnswer
    split
    · next j q m hx hord => exact h.retrieval hl (he.symm.trans hord) (.inl (by rw [hx, hown hx rfl])) a
    · next j q m hx hord => exact h.retrieval hl (he.symm.trans hord) (.inr (by rw [hx, hown hx rfl])) a
    · next j hx hord => exact absurd ⟨he.symm.trans hord, by rw [hx, hown hx rfl]⟩ htalk
    · exact hrelease
    · exact hrelease
    · exact hrelease
    · next j hx hord => exact hc.splitAnswer hl (by rw [hx, hown hx rfl]) r a
    · next j ext hx hord => exact hc.ringAnswer hl (by rw [hx, hown hx rfl]) a
    · exact hc.transferAnswer p l r e a
    · next j ext hx hord => exact hc.campAnswer hl (h.spare ext (he.symm.trans hord)) a
    · next j hx hord => exact hc.dropDestAnswer hl (by rw [hx, hown hx rfl]) a
    · next j q m hx hord => exact hc.returnAnswer hl (by rw [hx, hown hx rfl]) a
    · exact hc.retire false
    · exact .of_carried hc

end Answering

end Sys2Proof.Machine
end

section
/-! PROOFS. The rescue set's and every other owner's action on a response (R88, R89, R118 to R121, R130), and the work of a
response as a whole (R132). -/

namespace Sys2Proof.Machine

/-! ### The rescue set (R88, R89) -/

namespace Carried
variable {i : Slot} {t : State} {r : Record} {m : Rescue}

/-- The fields of a rescue set member change, and an order other than CAMP and CONNECT is issued. -/
theorem rescued (h : Carried i t r) (hl : r.loc = .rescue m) {m' : Rescue} (hm : m'.orbit = none) {o : Order} (hcamp : o.campExt? = none)
    (hconn : o.isConnect = false) : Settling i ((t.updRescue i m').issue i o .none) :=
  .of_carried (((h.loose_of_rescue hl).putRec (fun r => { r with loc := .rescue m' }) hm h.plain.mark h.plain.claim).issueOther _ hcamp hconn)

theorem rescueHold (h : Carried i t r) (hl : r.loc = .rescue m) (m' : Rescue) : Settling i (t.rescueHold i m') := h.rescued hl rfl rfl rfl

theorem rescueToQueue (h : Carried i t r) : Settling i (t.rescueToQueue i) := h.settling_recallFrom _ _

/-- The rescue set's answers but those to a HOLD (R88). -/
theorem rescueAnswer (h : Carried i t r) (hl : r.loc = .rescue m) {e : Entry} (ho : e.order ≠ .hold)
    (spare : ∀ ext, e.order = .camp ext → CampSpare t ext) (a : Answer) : Settling i (t.rescueAnswer i m r e a) := by
  unfold State.rescueAnswer
  split
  · exact h.rescueHold hl _
  · exact h.rescueToQueue
  · next hord => exact absurd hord ho
  · next hord => exact absurd hord ho
  · exact h.retire false
  · split
    · exact h.retire false
    · split
      · exact h.rescueHold hl _
      · exact h.rescueToQueue
  · exact h.rescueToQueue
  · exact h.rescueHold hl _
  · split
    · exact .of_carried ((h.issueOther _ rfl rfl).setStep 6)
    · exact h.rescueToQueue
  · exact h.rescueToQueue
  · split
    · exact h.retire false
    · exact .of_carried ((h.loose_of_rescue hl).extendTo h.plain.mark h.plain.claim _ _).choose_spec
  · exact .of_carried (h.issueOther _ rfl rfl)
  · next ext _ hord => exact .of_carried ((h.loose_of_rescue hl).campAt h.plain.mark h.plain.claim (spare ext hord)).choose_spec
  · exact h.rescueToQueue
  · exact h.rescueToQueue
  · exact .of_carried h
  · exact .of_carried h

end Carried

namespace Answering
variable {i : Slot} {t : State} {r : Record} {o : Order} {m : Rescue}

/-- A refused rescue HOLD: the reservation goes and RELEASE is issued; a WAITING claim stays for the re-examination (R90). -/
theorem rescueRelease (h : Answering i t r o) (ho : o = .hold) (hl : r.loc = .rescue m) :
    Settling i ((t.freeOrbits i).rescueRelease i m) := by
  have hq : r.loc ≠ .queued ∧ ∀ u, r.loc ≠ .parked u := by rw [hl]; exact ⟨nofun, nofun⟩
  have hlive : (t.freeOrbits i).slot i = .live r := h.fitted.live
  unfold State.rescueRelease State.updRescue
  rw [updRec_slots_of_live hlive]
  generalize hr1 : ({ r with loc := .rescue { m with orbit := none, final := true } } : Record) = r1
  have hloc1 : r1.loc = .rescue { m with orbit := none, final := true } := by subst hr1; rfl
  have hmark1 : r1.mark = none := by subst hr1; exact h.mark
  have hclaim1 : r1.claim = r.claim := by subst hr1; rfl
  have horbits (u : OrbitNo) : (t.freeOrbits i).orbit u = if t.orbit u = .reserved i then .empty else t.orbit u := by
    rw [orbit_freeOrbits]
    refine if_congr ⟨fun hn => ?_, fun hx => (names_iff _ _).2 (.inl hx)⟩ rfl rfl
    exact ((names_iff _ _).1 hn).resolve_right fun hx => hq.2 u ((h.fitted.fits.parked u).1 hx)
  have hfits : Fits ((t.freeOrbits i).setSlot i (.live r1)) i r1 :=
    h.fitted.fits.unreserved h.mark (fun _ _ => rfl) horbits rfl (.inr ⟨by rw [hl]; rfl, by rw [hloc1]; rfl⟩) hq
      (fun m' hm' => by rw [hloc1] at hm'; cases hm'; rfl) hmark1 hclaim1
  have hfitted : Fitted i (((t.freeOrbits i).setSlot i (.live r1)).issue i .release .none) r1 :=
    Fitted.issue ⟨h.fitted.but.freeOrbits.setSlot _, slot_setSlot_self _ _ _, hfits⟩ _ rfl fun hc => nomatch hc
  refine ⟨fun r' hr' => ?_, fun hn => absurd hfitted.live (hn r1)⟩
  rw [hfitted.live] at hr'
  cases hr'
  refine ⟨hfitted, ⟨fun hm => absurd hmark1 hm, fun c hc hg => ?_, fun u hu => ?_⟩, fun _ _ _ => .inr (by rw [hloc1]; rfl)⟩
  · rw [h.not_granted ho (hclaim1 ▸ hc)] at hg
    cases hg
  · rw [issue_frame] at hu
    have hu : (t.freeOrbits i).orbit u = .reserved i := hu
    rw [horbits] at hu
    split at hu
    · cases hu
    · next hne => exact absurd hu hne

theorem rescue (h : Answering i t r o) (hl : r.loc = .rescue m) {e : Entry} (he : e.order = o) (a : Answer) :
    Settling i (t.rescueAnswer i m r e a) := by
  have hq : r.loc ≠ .queued ∧ ∀ u, r.loc ≠ .parked u := by rw [hl]; exact ⟨nofun, nofun⟩
  by_cases ho : o = .hold
  · cases a with
    | done b =>
      cases hm : m.orbit with
      | some u =>
        have hact : t.rescueAnswer i m r e (.done b) = t.placeInOrbit i u m.failed := by
          simp only [State.rescueAnswer, he, ho, hm]
        have hself : t.leaveHolder i = t := by
          unfold State.leaveHolder
          simp only [(record?_eq_some t i).2 h.fitted.live, hl]
        have hpark := h.parked ho (.inr ⟨m, hl⟩) (h.fitted.fits.rescued m u hl hm) m.failed
        rwa [hself, ← hact] at hpark
      | none =>
        have hact : t.rescueAnswer i m r e (.done b) = t.rescueToQueue i := by simp only [State.rescueAnswer, he, ho, hm]
        rw [hact]
        refine (h.carried_of_not_hold hq.1 hq.2 fun u hu => ?_).rescueToQueue
        obtain ⟨p, l, hloc, -⟩ | ⟨m', hloc, hm'⟩ := h.fitted.fits.reserved u hu <;> rw [hl] at hloc <;> cases hloc
        rw [hm] at hm'
        cases hm'
    | refused b =>
      have hact : t.rescueAnswer i m r e (.refused b) = (t.freeOrbits i).rescueRelease i m := by
        unfold State.rescueAnswer
        rw [he, ho]
      rw [hact]
      exact h.rescueRelease ho hl
  · exact (h.carried_of_not_hold hq.1 hq.2 (h.not_reserved ho)).rescueAnswer hl (by rwa [he]) (fun ext hx => h.spare ext (he ▸ hx)) a

/-! ### Every owner (R130) -/

/-- The acknowledgement of a claim, or nothing (R22). -/
theorem claim (h : Answering i t r o) (hl : r.loc = .queued ∨ ∃ u, r.loc = .parked u) (a : Answer) :
    Settling i (match r.claim with
      | some c => if c.granted then t.claimAnswer i c a else t
      | none => t) := by
  have hfree (u : OrbitNo) : t.orbit u ≠ .reserved i := fun hu => by
    obtain ⟨hq, hp, -⟩ := h.fitted.fits.not_queued_of_reserved hu
    obtain hl | ⟨v, hl⟩ := hl
    · exact hq hl
    · exact hp v hl
  split
  · next c hc =>
    split
    · next hg =>
      cases a with
      | done b => exact .of_carried (h.fitted.claimDone hc hg hfree).choose_spec
      | refused b => exact .of_carried (h.fitted.claimRefused hc hfree).choose_spec
    · next hg =>
      refine h.settling (fun d hd => ?_) hfree
      rw [hc] at hd
      cases hd
      exact Bool.eq_false_iff.2 hg
  · next hc => exact h.settling (fun d hd => by rw [hc] at hd; cases hd) hfree

/-- A call elsewhere than on a loop and in the rescue set has no reservation. -/
theorem not_reserved_of_loc (h : Answering i t r o) (hl : (∀ p l, r.loc ≠ .loop p l) ∧ ∀ m, r.loc ≠ .rescue m) (u : OrbitNo) :
    t.orbit u ≠ .reserved i := fun hu => by
  obtain ⟨p, l, hx, -⟩ | ⟨m, hx, -⟩ := h.fitted.fits.reserved u hu
  · exact hl.1 p l hx
  · exact hl.2 m hx

/-- A call on a camp-on list or in the extended set is in no other dealing. -/
theorem carried_held (h : Answering i t r o) (hl : (∃ ext, r.loc = .camped ext) ∨ ∃ ext, r.loc = .extended ext) : Carried i t r := by
  have hne : (r.loc ≠ .queued ∧ ∀ u, r.loc ≠ .parked u) ∧ (∀ p l, r.loc ≠ .loop p l) ∧ ∀ m, r.loc ≠ .rescue m := by
    obtain ⟨ext, hl⟩ | ⟨ext, hl⟩ := hl <;> rw [hl] <;> exact ⟨⟨nofun, nofun⟩, nofun, nofun⟩
  exact h.carried_of_not_hold hne.1.1 hne.1.2 (h.not_reserved_of_loc hne.2)

/-- A QUEUED call after its DIVERT is in no other dealing. -/
theorem carried_diverted (h : Answering i t r o) (hl : r.loc = .queued) {ext : Digits} (ho : o = .divert ext) : Carried i t r := by
  have hfree := h.not_reserved_of_loc (by rw [hl]; exact ⟨nofun, nofun⟩)
  refine h.carried ?_ hfree
  by_contra hc
  obtain ⟨c, hc⟩ := Option.ne_none_iff_exists'.1 hc
  cases hg : c.granted with
  | true =>
    obtain ⟨p, l, hx⟩ := h.granted c hc hg
    rw [ho] at hx
    cases hx
  | false =>
    obtain ⟨u, hx⟩ | ⟨u, hx⟩ := h.waits c hc hg
    · rw [hl] at hx
      cases hx
    · exact hfree u hx

end Answering

namespace Carried
variable {i : Slot} {t : State} {r : Record}

theorem divertAnswer (h : Carried i t r) (e : Entry) (a : Answer) : Settling i (t.divertAnswer i e a) := by
  unfold State.divertAnswer
  split
  · exact h.retire false
  · split
    · exact .of_carried (h.updRec (fun r => { r with overflowSpent := true }) rfl rfl rfl)
    · exact .of_carried h

theorem rearmSpent (h : Carried i t r) (rec : Record) (pu : Purpose) (iv : Interval) : Settling i (t.rearmSpent i rec pu iv) := by
  unfold State.rearmSpent
  split
  · exact .of_carried (h.arm _ _).choose_spec
  · exact .of_carried (h.arm _ _).choose_spec

theorem campRingAnswer (h : Carried i t r) (ext : Digits) (rec : Record) (a : Answer) : Settling i (t.campRingAnswer i ext rec a) := by
  unfold State.campRingAnswer
  split
  · split
    · exact .of_carried (h.leave.extendTo h.plain.mark h.plain.claim _ _).choose_spec
    · exact .of_carried h
    · exact h.settling_recallFrom _ _
  · exact h.settling_recallFrom _ _

theorem campRetrieveAnswer (h : Carried i t r) (rec : Record) (a : Answer) : Settling i (t.campRetrieveAnswer i rec a) := by
  unfold State.campRetrieveAnswer
  split
  · exact h.settling_recallFrom _ _
  · exact h.rearmSpent _ _ _

theorem extRetrieveAnswer (h : Carried i t r) (rec : Record) (a : Answer) : Settling i (t.extRetrieveAnswer i rec a) := by
  unfold State.extRetrieveAnswer
  split
  · exact h.settling_recallFrom _ _
  · exact h.retire false
  · exact h.rearmSpent _ _ _

end Carried

theorem Answering.ownerActs {i : Slot} {t : State} {r : Record} {o : Order} (h : Answering i t r o) {e : Entry} (he : e.order = o)
    (a : Answer) : Settling i (t.ownerActs i r e a) := by
  unfold State.ownerActs
  split
  · next hl _ => exact h.claim (.inl hl) a
  · next u p l hl _ => exact h.claim (.inr ⟨u, hl⟩) a
  · next ext hl hord => exact (h.carried_diverted hl (he.symm.trans hord)).divertAnswer e a
  · next p l hl => exact h.loop hl he a
  · next ext _ hl _ => exact (h.carried_held (.inl ⟨ext, hl⟩)).campRingAnswer ext r a
  · next ext hl _ => exact (h.carried_held (.inl ⟨ext, hl⟩)).campRetrieveAnswer r a
  · next ext hl _ => exact (h.carried_held (.inr ⟨ext, hl⟩)).extRetrieveAnswer r a
  · next m hl => exact h.rescue hl he a
  · next hloop hrescue hqueued hparked _ _ _ _ =>
    refine h.settling (fun c hc => Bool.eq_false_iff.2 fun hg => ?_) (h.not_reserved_of_loc ⟨hloop, hrescue⟩)
    obtain ⟨p, l, hx⟩ := h.granted c hc hg
    obtain hl | ⟨u, hl⟩ := h.fitted.fits.claimed c hc hg
    · exact hqueued p l hl (he.trans hx)
    · exact hparked u p l hl (he.trans hx)

/-! ### The response (R132) -/

theorem Unheld.dropEntry {s : State} {i : Slot} (h : Unheld s i) : Unheld (s.dropEntry i) i := ⟨h.loops, h.orbits, h.camp⟩

theorem holders_answered {s : State} (hs : s.holdersOk) (hn : (s.orders.map Entry.slot).Nodup) {e : Entry} (he : e ∈ s.orders)
    (a : Option Answer) : (s.answered e a).holdersOk := by
  unfold State.answered
  refine holders_finishAll (holders_settleHeld (holders_reexamine ?_) _)
  have hslot : (s.dropEntry e.slot).slot e.slot = s.slot e.slot := rfl
  have hbut : HoldBut e.slot (s.dropEntry e.slot) := (but_of_holders hs e.slot).dropEntry
  have hgone {t : State} (ht : HoldBut e.slot t) (hu : Unheld t e.slot) (hl : ∀ r, t.slot e.slot ≠ .live r) : Settling e.slot t :=
    ⟨fun r hr => absurd hr (hl r), fun _ => holdersOk_of_but ht ⟨fun r hr => absurd hr (hl r), fun _ => hu⟩⟩
  simp only [hslot]
  cases hx : s.slot e.slot with
  | live r =>
    have hanswering := answering_of_holders hs hn he hx
    cases a with
    | some a => exact hanswering.ownerActs rfl a
    | none => exact hanswering.fitted.retire _
  | retiring ref =>
    have hu := ((slotOk_of_holders hs e.slot).other fun r hr => by rw [hx] at hr; cases hr).dropEntry
    exact hgone (hbut.setSlot _) ⟨hu.loops, hu.orbits, hu.camp⟩ fun r hr => by rw [slot_setSlot_self] at hr; cases hr
  | free =>
    have hu := ((slotOk_of_holders hs e.slot).other fun r hr => by rw [hx] at hr; cases hr).dropEntry
    exact hgone hbut hu fun r hr => by rw [hslot, hx] at hr; cases hr

theorem holders_retried {s : State} (hs : s.holdersOk) (hn : (s.orders.map Entry.slot).Nodup) {e : Entry} (he : e ∈ s.orders) :
    (s.retried e).holdersOk := by
  have hrest (g : Entry → Entry) (hg : ∀ x, (g x).slot = x.slot ∧ (g x).order = x.order) (w : List Slot) :
      State.holdersOk { s.updEntry e.slot g with window := w } :=
    SameHold.holders (s := s.updEntry e.slot g) (.of_fields rfl rfl rfl rfl rfl) ((sameHold_updEntry s e.slot hg).holders hs)
  unfold State.retried
  split
  · split
    · refine holders_finishOrders (hrest _ ?_ _)
      exact fun _ => ⟨rfl, rfl⟩
    · exact holders_answered hs hn he _
  · exact holders_answered hs hn he _

theorem holders_response {s : State} (hs : s.holdersOk) (hn : (s.orders.map Entry.slot).Nodup) (m : Decode.Reply) :
    (s.response m).holdersOk := by
  have hnotice : (s.protocolError Decode.typeResponse m.ref).holdersOk := (sameHold_transmit s _).holders hs
  unfold State.response
  split
  · next o e _ he =>
    have hmem := headEntry_mem he
    split
    · cases o with
      | done b => exact holders_answered hs hn hmem _
      | noCall => exact holders_answered hs hn hmem _
      | refused b => exact holders_answered hs hn hmem _
      | retry => exact holders_retried hs hn hmem
    · exact hnotice
  · exact hnotice

end Sys2Proof.Machine
end

section
/-! PROOFS. The rescue of the calls of a failed position keeps the holders sound (R85 to R88). -/

namespace Sys2Proof.Machine

/-! ### Leaving with a changed record -/

theorem leaveHolder_setSlot {s : State} {i : Slot} {r r' : Record} (h : s.slot i = .live r) (hl : r'.loc = r.loc) :
    (s.setSlot i (.live r')).leaveHolder i = (s.leaveHolder i).setSlot i (.live r') := by
  unfold State.leaveHolder
  simp only [(record?_eq_some s i).2 h, (record?_eq_some _ i).2 (slot_setSlot_self s i (.live r')), hl]
  cases r.loc <;> rfl

/-! ### The rescue set (R87, R88) -/

/-- A call on a loop with its order in flight enters the rescue set, with its reservation and a WAITING claim (R88, R90). -/
theorem holders_rescueInFlight {s : State} {i : Slot} {r : Record} {p : Pos} {l : LoopNo} (hs : s.holdersOk) (hr : s.slot i = .live r)
    (hloc : r.loc = .loop p l) (hf : s.inFlight i = true) (st : LoopState) : ((s.loopIdle p l).rescueInFlight p st i).holdersOk := by
  obtain ⟨h, ho, hw⟩ := fitted_of_holders hs hr
  have hmark : r.mark = none := h.fits.mark_none (by rw [hloc]; exact nofun)
  have hgranted {c : Claim} (hc : r.claim = some c) : c.granted = false := by
    rw [Bool.eq_false_iff]
    intro hg
    obtain hq | ⟨o, hq⟩ := h.fits.claimed c hc hg <;> rw [hloc] at hq <;> cases hq
  have hkept : (r.claim.bind fun c => if c.granted then none else some c) = r.claim := by
    cases hc : r.claim with
    | none => rfl
    | some c => rw [Option.bind_some, hgranted hc]; rfl
  have hidle : (s.loopIdle p l).slot i = .live r := hr
  have hleft : (s.loopIdle p l).leaveHolder i = (s.loopIdle p l).loopIdle p l :=
    leaveHolder_loop ((record?_eq_some (s.loopIdle p l) i).2 hidle) hloc
  have hloops (q : Pos) (m : LoopNo) : ((s.loopIdle p l).loopIdle p l).loop q m = if r.loc = .loop q m then .idle else s.loop q m := by
    rw [loop_after_loopIdle, loop_after_loopIdle, hloc]
    by_cases hqm : (q, m) = (p, l)
    · cases hqm
      rw [if_pos rfl, if_pos rfl]
    · rw [if_neg hqm, if_neg hqm, if_neg fun hc => hqm (by cases hc; rfl)]
  have honly := only_of_held ((h.fits.held p l).2 hloc)
  have hbut : HoldBut i ((s.loopIdle p l).loopIdle p l) :=
    (h.but.loopIdle honly).loopIdle fun j hj => by
      rw [loop_after_loopIdle, if_pos rfl] at hj
      cases hj
  unfold State.rescueInFlight State.enterRescue
  simp only
  rw [hleft, updRec_slots_of_live (s := (s.loopIdle p l).loopIdle p l) hr]
  simp only [hkept]
  generalize hm : (⟨p, st.condition, (s.loopIdle p l).reservation i, _⟩ : Rescue) = m
  generalize hr' : Record.disarm { r with loc := .rescue m, mark := none } = r'
  have hloc' : r'.loc = .rescue m := by subst hr'; rfl
  have hmark' : r'.mark = none := by subst hr'; rfl
  have hclaim' : r'.claim = r.claim := by subst hr'; rfl
  have horbit : ∀ u, s.orbit u = .reserved i ↔ m.orbit = some u := by
    have hres : m.orbit = s.reservation i := by subst hm; rfl
    rw [hres]
    obtain ⟨hnone, hno⟩ | ⟨o, hsome, ho⟩ := reservation_cases_of_fits h.fits
    · exact fun u => iff_of_false (hno u) (by rw [hnone]; exact nofun)
    · intro u
      rw [hsome, ho]
      exact ⟨fun hu => congrArg some hu.symm, fun hu => (Option.some.inj hu).symm⟩
  have hother {q : Pos} {n : LoopNo} {x : LoopState} (hx : x ≠ .idle) (hnot : x.held? = none) :
      ((s.loopIdle p l).loopIdle p l).loop q n = x ↔ s.loop q n = x := by
    rw [hloops]
    by_cases hl : r.loc = .loop q n
    · rw [if_pos hl]
      have hheld := (h.fits.held q n).2 hl
      exact iff_of_false (Ne.symm hx) fun hc => by rw [hc, hnot] at hheld; cases hheld
    · rw [if_neg hl]
  have hfits : Fits (((s.loopIdle p l).loopIdle p l).setSlot i (.live r')) i r' := by
    refine ⟨fun q n => ?_, fun q n => ?_, fun q n => ?_, fun u => ?_, fun ext => ?_, fun m' u hm' hu => ?_, fun u hu => .inr ⟨m, hloc', ?_⟩,
      h.fits.once, fun hne => absurd hmark' hne, fun c hc hg => ?_⟩
    · rw [hmark', ← hmark]
      exact (hother LoopState.noConfusion rfl).trans (h.fits.alerting q n)
    · rw [hclaim']
      exact (hother LoopState.noConfusion rfl).trans (h.fits.connecting q n)
    · rw [hloc']
      refine iff_of_false (fun hx => ?_) nofun
      have hx : (((s.loopIdle p l).loopIdle p l).loop q n).held? = some i := hx
      rw [hloops] at hx
      split at hx
      · cases hx
      · next hl => exact hl ((h.fits.held q n).1 hx)
    · rw [hloc']
      refine iff_of_false (fun hx => ?_) nofun
      have := (h.fits.parked u).1 hx
      rw [hloc] at this
      cases this
    · rw [hloc']
      refine iff_of_false (fun hx => ?_) nofun
      have := (h.fits.camped ext).1 hx
      rw [hloc] at this
      cases this
    · rw [hloc'] at hm'
      cases hm'
      exact (horbit u).2 hu
    · exact (horbit u).1 hu
    · rw [hclaim'] at hc
      rw [hgranted hc] at hg
      cases hg
  refine Fitted.holders ⟨hbut.setSlot _, slot_setSlot_self _ _ _, hfits⟩ ⟨fun hne => absurd hmark' hne, fun c hc hg => ?_, ho.reserved⟩
    fun c hc hg => ?_
  · rw [hclaim'] at hc
    rw [hgranted hc] at hg
    cases hg
  · rw [hclaim'] at hc
    refine ⟨hf, .inr ((hw c hc hg).2.resolve_left ?_)⟩
    rw [hloc]
    exact fun ⟨_, hx⟩ => nomatch hx

/-- A call of a granted claim leaves its queue place or orbit for the rescue set (R88). -/
theorem holders_rescueClaimed {s : State} {i : Slot} {r : Record} {c : Claim} (hs : s.holdersOk) (hr : s.slot i = .live r)
    (hc : r.claim = some c) (hg : c.granted = true) (st : LoopState) :
    ((s.loopIdle c.pos c.loop).rescueInFlight c.pos st i).holdersOk := by
  obtain ⟨h, ho, -⟩ := fitted_of_holders hs hr
  have hplace := h.fits.claimed c hc hg
  have hmark := h.fits.mark_none_of_claim hc
  have hfree (u : OrbitNo) : s.orbit u ≠ .reserved i := fun hu => by
    obtain ⟨hq, hp, -⟩ := h.fits.not_queued_of_reserved hu
    obtain hl | ⟨o, hl⟩ := hplace
    · exact hq hl
    · exact hp o hl
  have hres : (s.loopIdle c.pos c.loop).reservation i = none := reservation_none hfree
  have hidle : (s.loopIdle c.pos c.loop).slot i = .live r := hr
  have hended := (h.unclaim (r' := { r with claim := none }) hc rfl hmark rfl).carried ⟨hmark, rfl, hfree⟩
  have hleft : ((s.loopIdle c.pos c.loop).leaveHolder i).slot i = .live r := by rw [leaveHolder_slot]; exact hidle
  have hloose := hended.leave
  rw [leaveHolder_setSlot hidle (show ({ r with claim := none } : Record).loc = r.loc from rfl)] at hloose
  unfold State.rescueInFlight State.enterRescue
  simp only
  rw [updRec_slots_of_live hleft, hres, hc, Option.bind_some, hg]
  have hput {r' : Record} (hl : r'.loc.holderless) (hm : r'.mark = none) (hc' : r'.claim = none) :
      (((s.loopIdle c.pos c.loop).leaveHolder i).setSlot i (.live r')).holdersOk := by
    have := (hloose.put hl hm hc').holders
    rwa [setSlot_setSlot] at this
  exact hput rfl rfl rfl

/-- A call on a loop with no order in flight is rescued (R86). -/
theorem holders_rescueSettled {s : State} {i : Slot} {r : Record} {p : Pos} {l : LoopNo} (h : Carried i s r) (hloc : r.loc = .loop p l)
    {st : LoopState} (hst : st.held? = some i) : ((s.loopIdle p l).rescueSettled p st i).holdersOk := by
  have hrec := (record?_eq_some s i).2 h.live
  have hleft : s.leaveHolder i = s.loopIdle p l := leaveHolder_loop hrec hloc
  have hagain : (s.loopIdle p l).leaveHolder i = (s.loopIdle p l).loopIdle p l :=
    leaveHolder_loop (s := s.loopIdle p l) hrec hloc
  have hsame : SameHold (s.loopIdle p l) ((s.loopIdle p l).leaveHolder i) := by
    rw [hagain]
    refine ⟨rfl, fun q m => ?_, rfl, rfl, rfl⟩
    rw [loop_after_loopIdle]
    split
    · next hqm => rw [loop_after_loopIdle, if_pos hqm]
    · rfl
  have hloose0 := h.leave
  rw [hleft] at hloose0
  have hloose := hloose0.same hsame
  have hqueue : ((s.loopIdle p l).recallFrom i .positionLost none).holdersOk := (hloose.recall .positionLost none).choose_spec.holders
  have henter (m : Rescue) (hm : m.orbit = none) : ∃ r', Carried i ((s.loopIdle p l).enterRescue i m) r' := by
    refine ⟨_, hloose.putRec _ hm rfl ?_⟩
    show (r.claim.bind fun c => if c.granted then none else some c) = none
    rw [h.plain.claim]
    rfl
  have hissued (m : Rescue) (hm : m.orbit = none) (o : Order) (k : Mark) (hcamp : o.campExt? = none) (hconn : o.isConnect = false) :
      ∃ r', Carried i (((s.loopIdle p l).enterRescue i m).issue i o k) r' :=
    ⟨_, (henter m hm).choose_spec.issueOther k hcamp hconn⟩
  cases st with
  | talk j => exact (hissued _ rfl .hold .none rfl rfl).choose_spec.holders
  | held j => exact hqueue
  | recalling j => exact hqueue
  | extend j =>
    unfold State.rescueSettled
    simp only
    split
    · split
      · exact ((hissued _ rfl .transfer .unscreened rfl rfl).choose_spec.setStep 6).holders
      · split
        · exact ((hissued _ rfl .transfer .screened rfl rfl).choose_spec.setStep 6).holders
        · exact hqueue
    · next hnone =>
      have hnone : s.record? i = none := hnone
      rw [hrec] at hnone
      cases hnone
  | locked j => exact (hissued _ rfl .release .none rfl rfl).choose_spec.holders
  | _ => cases hst

/-! ### The failed position (R85) -/

theorem holders_rescueLoop {s : State} (hs : s.holdersOk) (p : Pos) (l : LoopNo) : (s.rescueLoop p l).holdersOk := by
  obtain ⟨hloops, -⟩ := id hs
  obtain ⟨halerting, hconnecting, hheld⟩ := hloops p l
  have hcall {i : Slot} {x : LoopState} (hx : s.loop p l = x) (hi : x.held? = some i) :
      (if s.inFlight i then (s.loopIdle p l).rescueInFlight p x i else (s.loopIdle p l).rescueSettled p x i).holdersOk := by
    obtain ⟨r, hr, hloc⟩ := hheld i (hx ▸ hi)
    split
    · next hf => exact holders_rescueInFlight hs hr hloc hf _
    · next hf =>
      have hmark : r.mark = none := (fitted_of_holders hs hr).1.fits.mark_none (by rw [hloc]; exact nofun)
      exact holders_rescueSettled (carried_of_settled hs hr (Bool.eq_false_iff.2 hf) hmark) hloc hi
  unfold State.rescueLoop
  cases hx : s.loop p l with
  | idle => exact hs
  | alerting i =>
    obtain ⟨r, hr, -, hm⟩ := halerting i hx
    have hidle : (s.loopIdle p l).slot i = .live r := hr
    simp only
    rw [updRec_slots_of_live hidle, armAging_timer (slot_setSlot_self _ _ _), setSlot_setSlot]
    exact holders_unmark hs hr hm rfl rfl rfl
  | connecting i =>
    obtain ⟨r, c, hr, hc, rfl, rfl⟩ := hconnecting i hx
    have hclaim : (s.record? i).bind Record.claim = some c := by rw [(record?_eq_some s i).2 hr, Option.bind_some, hc]
    simp only [hclaim]
    split
    · next hg => exact holders_rescueClaimed hs hr hc hg _
    · obtain ⟨h, ho, -⟩ := fitted_of_holders hs hr
      have hmark := h.fits.mark_none_of_claim hc
      have hidle : (s.loopIdle c.pos c.loop).slot i = .live r := hr
      rw [updRec_slots_of_live hidle]
      exact (h.unclaim (r' := { r with claim := none }) hc rfl hmark rfl).holders
        ⟨fun hne => absurd hmark hne, nofun, fun u hu => ho.reserved u hu⟩ nofun
  | talk i => exact hcall hx rfl
  | held i => exact hcall hx rfl
  | recalling i => exact hcall hx rfl
  | extend i => exact hcall hx rfl
  | locked i => exact hcall hx rfl

theorem holders_failPosition {s : State} (hs : s.holdersOk) (p : Pos) : (s.failPosition p).holdersOk := by
  have hfailed : (s.updPos p fun q => { q with keys := [], state := .faulted }).holdersOk := (sameHold_updPos rfl).holders hs
  have hcleared (u : State) (hu : u.holdersOk) : (u.updPos p fun q => { q.clearAlerts with note := none }).holdersOk :=
    (sameHold_updPos rfl).holders hu
  unfold State.failPosition
  refine hcleared _ (holders_foldl (fun t l ht => holders_rescueLoop ht p l) allLoops ?_)
  split
  · exact (sameHold_nowUnstaffed _).holders hfailed
  · exact hfailed

theorem holders_sampleCarrier {s : State} (hs : s.holdersOk) (p : Pos) (level : Bool) : (s.sampleCarrier p level).holdersOk := by
  have hback : (s.carrierBack p).holdersOk := by
    unfold State.carrierBack
    split
    · exact (sameHold_updPos rfl).holders hs
    · exact hs
  have hlost : (s.carrierLost p).holdersOk := by
    have hpin : (s.updPos p fun q => { q with carrier := false }).holdersOk := (sameHold_updPos rfl).holders hs
    unfold State.carrierLost
    split
    · simp only
      split
      · exact hpin
      · exact holders_failPosition hpin p
    · exact hs
  unfold State.sampleCarrier
  split
  · refine holders_finishOffers ?_
    split
    · exact hback
    · exact hlost
  · exact hs

end Sys2Proof.Machine
end

section
/-! PROOFS. Every command, and so every step, keeps the holders sound (R10). -/

namespace Sys2Proof.Machine

/-! ### Messages -/

theorem holders_notice {s : State} (hs : s.holdersOk) (m : XMsg) : (s.transmit m).holdersOk := (sameHold_transmit s m).holders hs

theorem holders_decoded {α : Type} {s : State} (hs : s.holdersOk) (typ : Byte) (m : Option α) {act : α → State}
    (h : ∀ a, (act a).holdersOk) : (s.decoded typ m act).holdersOk := by
  unfold State.decoded
  split
  · exact h _
  · exact holders_notice hs _

theorem holders_whileUp {s : State} (hs : s.holdersOk) (typ : Byte) (ref : CallRef) {act : State} (h : act.holdersOk) :
    (s.whileUp typ ref act).holdersOk := by
  unfold State.whileUp
  split
  · exact h
  · exact holders_notice hs _

/-! ### Admission and call events (R13, R16, R96, R117) -/

theorem holders_admitted {s : State} (hs : s.holdersOk) {i : Slot} {r : Record} (free : s.slot i = .free) (hq : r.loc = .queued)
    (hm : r.mark = none) (hc : r.claim = none) (aging : r.aging = 0) : (s.admitted i r).holdersOk := by
  have hu := (slotOk_of_holders hs i).other fun r hr => by rw [free] at hr; cases hr
  rw [admitted_eq s i aging]
  generalize hr' : r.armAt .aging (s.tick + (s.tenant r.tenant).agingInterval) = r'
  have hloc' : r'.loc.holderless := by subst hr'; exact (congrArg Location.holderless hq).mpr trivial
  have hm' : r'.mark = none := by subst hr'; exact hm
  have hc' : r'.claim = none := by subst hr'; exact hc
  have hloose : Loose i (s.setSlot i (.live r')) r' :=
    ⟨(but_of_holders hs i).setSlot _, slot_setSlot_self _ _ _, hu.loops, hu.orbits, hu.camp⟩
  have hput := hloose.put hloc' hm' hc'
  rw [setSlot_setSlot] at hput
  exact ((hput.same (sameHold_joinTail _ i)).same (sameHold_transmit _ _)).nightJoin.holders

theorem holders_arrival {s : State} (hs : s.holdersOk) (a : Decode.Arrival) : (s.arrival a).holdersOk := by
  unfold State.arrival
  split
  · exact holders_notice hs _
  · split
    · exact holders_notice hs _
    · split
      · exact holders_notice (holders_notice hs _) _
      · split
        · exact holders_notice hs _
        · next i hi => exact holders_finishOffers (holders_admitted hs (lowestFree_free hi) rfl rfl rfl rfl)

theorem holders_retire {s : State} (hs : s.holdersOk) {i : Slot} {r : Record} (hr : s.slot i = .live r) (gone : Bool) :
    (s.retire i gone).holdersOk := by
  obtain ⟨h, -⟩ := fitted_of_holders hs hr
  exact retire_holders h.but hr h.fits gone

theorem holders_clearedCall {s : State} (hs : s.holdersOk) (ref : CallRef) : (s.clearedCall ref).holdersOk := by
  unfold State.clearedCall
  split
  · split
    · next r hr => exact holders_finishAll (holders_retire hs ((record?_eq_some s _).1 hr) true)
    · exact hs
  · exact hs

theorem holders_setStep {s : State} (hs : s.holdersOk) (i : Slot) (n : Fin 7) : (s.setStep i n).holdersOk :=
  holders_updRec hs (fun r => { r with step := n }) (fun _ => rfl) (fun _ => rfl) (fun _ => rfl) fun _ hr hm =>
    ((fitted_of_holders hs hr).1.fits.marked hm).2.2

theorem holders_destAnswered {s : State} (hs : s.holdersOk) (i : Slot) : (s.destAnswered i).holdersOk := by
  unfold State.destAnswered
  split
  · next r hr =>
    split
    · split
      · exact (sameHold_refresh _).holders ((sameHold_raiseLoop _ _ _ _).holders (holders_setStep hs i 5))
      · exact hs
    · exact holders_finishAll (holders_retire hs ((record?_eq_some s i).1 hr) false)
    · exact hs
  · exact hs

/-- An order other than CAMP that retrieves no loop of its call, issued in a sound state. -/
theorem holders_issue {s : State} (hs : s.holdersOk) {i : Slot} {r : Record} (hr : s.slot i = .live r) (hm : r.mark = none) {o : Order}
    (hcamp : o.campExt? = none) (hconn : o.isConnect = true → ∀ p l, s.loop p l ≠ .held i ∧ s.loop p l ≠ .recalling i) (m : Mark) :
    (s.issue i o m).holdersOk := by
  by_cases hf : s.inFlight i = true
  · have hself : s.issue i o m = s := by
      obtain h | ⟨_, _, hf', _⟩ := issue_cases s i o m
      · exact h
      · rw [hf] at hf'
        cases hf'
    rw [hself]
    exact hs
  · exact ((carried_of_settled hs hr (Bool.eq_false_iff.2 hf) hm).issue m hcamp hconn).holders

theorem holders_destCleared {s : State} (hs : s.holdersOk) (i : Slot) : (s.destCleared i).holdersOk := by
  unfold State.destCleared
  split
  · next r hrec =>
    split
    · next p l hl =>
      split
      · next hx =>
        have hr := (record?_eq_some s i).1 hrec
        have hfit := (fitted_of_holders hs hr).1.fits
        have hheld := (hfit.held p l).2 hl
        have hloop : s.loop p l = .extend i := by
          obtain ⟨j, hj⟩ := isExtend_iff.1 (Bool.and_eq_true_iff.1 hx).1
          rw [hj] at hheld ⊢
          exact congrArg LoopState.extend (Option.some.inj hheld)
        have hissued := holders_issue hs hr (hfit.mark_none (by rw [hl]; exact nofun)) (o := .connect p l) rfl
          (fun _ => hfit.not_retrieved hl hloop) .none
        exact holders_finishOrders (holders_setStep hissued i 6)
      · exact hs
    · exact hs
  · exact hs

theorem holders_destState {s : State} (hs : s.holdersOk) (body : List Byte) : (s.destState body).holdersOk := by
  refine holders_decoded hs _ _ fun m => holders_whileUp hs _ _ ?_
  split
  · cases s.byRef m.1 with
    | none => exact hs
    | some i => exact holders_destAnswered hs i
  · split
    · cases s.byRef m.1 with
      | none => exact hs
      | some i => exact holders_destCleared hs i
    · exact holders_notice hs _

theorem holders_extensionFree {s : State} (hs : s.holdersOk) (ext : Digits) : (s.extensionFree ext).holdersOk := by
  unfold State.extensionFree
  split
  · next i hi =>
    obtain ⟨e, he, hfind⟩ := Option.bind_eq_some_iff.1 hi
    have hext : e.ext = ext := by simpa using List.find?_some he
    have hcamps : s.campsOn i ext := ⟨e, List.mem_of_find?_eq_some he, hext, List.mem_of_find?_eq_some hfind⟩
    obtain ⟨r, hr, hl⟩ : ∃ r, s.slot i = .live r ∧ r.loc = .camped ext := by
      by_contra hno
      by_cases hlive : ∃ r, s.slot i = .live r
      · obtain ⟨r, hr⟩ := hlive
        exact hno ⟨r, hr, ((fitted_of_holders hs hr).1.fits.camped ext).1 hcamps⟩
      · exact ((slotOk_of_holders hs i).other fun r hr => hlive ⟨r, hr⟩).camp ext hcamps
    refine holders_finishOrders (holders_issue hs hr ?_ (o := .ringExt ext) rfl (fun hc => nomatch hc) .none)
    exact (fitted_of_holders hs hr).1.fits.mark_none (by rw [hl]; exact nofun)
  · exact hs

/-! ### The emptied Call Table (R137, R142, R151) -/

theorem holders_clearCalls (s : State) : s.clearCalls.holdersOk :=
  holdersOk_of_no_call ⟨clearCalls_loop s, clearCalls_orbit s, rfl, rfl⟩ (clearCalls_slot s) rfl

theorem holders_linkFailure (s : State) : s.linkFailure.holdersOk := by
  have hfailed : s.failed.holdersOk := (SameHold.of_fields (s := s.clearCalls) rfl rfl rfl rfl rfl).holders (holders_clearCalls s)
  rw [linkFailure_eq]
  exact (sameHold_refresh _).holders
    (holders_foldl (fun t p ht => (sameHold_raiseKind t p .exchangeDown).holders ht) allPos (holders_drainAll hfailed))

theorem holders_reset (s : State) (poseq : BitVec 2) (xrate : Bool) (pcar : BitVec 4) :
    State.holdersOk { State.atReset poseq xrate pcar with pending := s.pending } :=
  (SameHold.of_fields (s := State.atReset poseq xrate pcar) rfl rfl rfl rfl rfl).holders
    (holdersOk_of_no_call (emptied_atReset poseq xrate pcar) (slot_atReset poseq xrate pcar) rfl)

/-! ### Time and the lines -/

theorem sameHold_testHead (s : State) : SameHold s s.testHead := by
  unfold State.testHead
  split
  · split
    · split
      · exact sameHold_updEntry _ _ fun _ => ⟨rfl, rfl⟩
      · exact .refl _
    · exact .refl _
  · exact .refl _

theorem sameHold_advance (s : State) : SameHold s s.advance := by
  have hcount : SameHold s { s with
      tick := s.tick + 1
      xrx := s.xrx.advance
      positions := s.positions.map fun q => { q with rx := q.rx.advance } } :=
    ⟨rfl, fun p l => by simp only [State.loop, State.pos, Fin.getElem_fin, Vector.getElem_map], rfl, rfl, rfl⟩
  exact hcount.trans (sameHold_testHead _)

theorem sameHold_sendFrame (s : State) (p : Pos) : SameHold s (s.sendFrame p) := by
  unfold State.sendFrame
  split
  · split
    · exact .refl s
    · exact sameHold_updPos rfl
    · exact sameHold_updPos rfl
    · exact sameHold_updPos rfl
  · exact .refl s

theorem sameHold_discardFrame (s : State) (l : Link) : SameHold s (s.discardFrame l) := by
  cases l with
  | exchange => exact .of_fields rfl rfl rfl rfl rfl
  | position p =>
    show SameHold s (if (s.pos p).state.equipped = true then s.updPos p fun q => { q with rx := .hunting } else s)
    split
    · exact sameHold_updPos rfl
    · exact .refl s

theorem sameHold_toneDue (s : State) (p : Pos) : SameHold s (s.updPos p fun q => q.toneDue s.tick) := by
  refine sameHold_updPos ?_
  unfold Position.toneDue
  split
  · rw [sound_eq]
  · rfl

theorem sameHold_withMasks (s : State) (p : Pos) (w : Decode.PositionWrite) : SameHold s (s.updPos p fun q => q.withMasks s.tick w) := by
  refine sameHold_updPos ?_
  unfold Position.withMasks Position.afterToneMask
  split
  · split
    · rfl
    · rw [sound_eq]
  · rfl

theorem sameHold_idle (s : State) : SameHold s s.idle := by
  unfold State.idle
  split
  · next t h =>
    unfold State.exchangeTurn at h
    split at h
    · cases h
      exact .of_fields rfl rfl rfl rfl rfl
    · split at h
      · cases h
        exact .of_fields rfl rfl rfl rfl rfl
      · cases h
  · cases h : allPos.findSome? s.positionTurn with
    | none => exact .refl s
    | some t =>
      obtain ⟨p, -, hp⟩ := List.exists_of_findSome?_eq_some h
      unfold State.positionTurn at hp
      simp only at hp
      split at hp
      · split at hp
        · cases hp
          exact .of_fields rfl rfl rfl rfl rfl
        · split at hp
          · next b rest _ =>
            cases hp
            exact (sameHold_updPos (s := s) (p := p) (f := fun q => { q with line := rest, rx := (q.rx.feed b).1 }) rfl).trans
              (.of_fields rfl rfl rfl rfl rfl)
          · cases hp
      · cases hp

/-! ### The commands -/

theorem holders_responseMessage {s : State} (hs : s.holdersOk) (hn : (s.orders.map Entry.slot).Nodup) (body : List Byte) :
    (s.responseMessage body).holdersOk :=
  holders_decoded hs _ _ fun m => holders_whileUp hs _ _ (holders_response hs hn m)

theorem holders_exec {c : Instr} {s t : State} (hs : s.holdersOk) (hn : (s.orders.map Entry.slot).Nodup) (h : exec c s = .next t) :
    t.holdersOk := by
  have press {p : Pos} {k : KeyMsg} (h : Host.Outcome.next (s.press p k) = Host.Outcome.next (φ := Fault) (ρ := Refusal) t) :
      t.holdersOk := by cases h; exact holders_press hs p k
  have hrefresh (u : State) (hu : u.holdersOk) : u.refresh.holdersOk := (sameHold_refresh u).holders hu
  cases c with
  | reset poseq xrate pcar => cases h; exact holders_reset s poseq xrate pcar
  | tick pcar =>
    cases h
    exact holders_foldl (fun t p ht => holders_sampleCarrier ht p _) allPos ((sameHold_advance s).holders hs)
  | agingExpiry i => cases h; exact holders_expiry hs _ _ fun _ => holders_finishOrders
  | offerExpiry i => cases h; exact holders_expiry hs _ _ fun _ => holders_finishOffers
  | holdRecallExpiry i => cases h; exact holders_expiry hs _ _ hrefresh
  | escalateExpiry i => cases h; exact holders_expiry hs _ _ fun _ => holders_finishAll
  | noAnswerExpiry i => cases h; exact holders_expiry hs _ _ fun _ => holders_finishOrders
  | campTimeoutExpiry i => cases h; exact holders_expiry hs _ _ fun _ => holders_finishOrders
  | parkRecallExpiry i => cases h; exact holders_expiry hs _ _ fun _ => holders_finishOffers
  | orderTimeout =>
    cases h
    split
    · exact holders_linkFailure s
    · exact hs
  | retryDeadlineExpiry i =>
    cases h
    split
    · split
      · split
        · refine holders_finishOrders ((sameHold_updEntry s i ?_).holders hs)
          exact fun _ => ⟨rfl, rfl⟩
        · exact hs
      · exact hs
    · exact hs
  | nightDelayExpiry =>
    cases h
    split
    · split
      · exact holders_finishOrders (holders_nightEntry hs)
      · exact hs
    · exact hs
  | toneRepeatExpiry p =>
    cases h
    split
    · split
      · exact (sameHold_toneDue s p).holders hs
      · exact hs
    · exact hs
  | frameByteTimeout l => cases h; exact (sameHold_discardFrame s l).holders hs
  | frameError l => cases h; exact (sameHold_discardFrame s l).holders hs
  | carrierLoss p => cases h; exact holders_sampleCarrier hs p _
  | carrierReturn p => cases h; exact holders_sampleCarrier hs p _
  | linkUp body =>
    cases h
    refine holders_decoded hs _ _ fun _ => ?_
    split
    · exact holders_finishAll (holders_clearCalls s)
    · exact (SameHold.of_fields (s := s) rfl rfl rfl rfl rfl).holders hs
  | restart body =>
    cases h
    exact holders_decoded hs _ _ fun _ => holders_whileUp hs _ _ (holders_finishAll (holders_clearCalls s))
  | arrive body => cases h; exact holders_decoded hs _ _ fun a => holders_whileUp hs _ _ (holders_arrival hs a)
  | cleared body => cases h; exact holders_decoded hs _ _ fun ref => holders_whileUp hs _ _ (holders_clearedCall hs ref)
  | destStateAnswered body => cases h; exact holders_destState hs body
  | destStateDestCleared body => cases h; exact holders_destState hs body
  | extFree body => cases h; exact holders_decoded hs _ _ fun ext => holders_whileUp hs _ _ (holders_extensionFree hs ext)
  | responseDone body => cases h; exact holders_responseMessage hs hn body
  | responseRefused body => cases h; exact holders_responseMessage hs hn body
  | responseRetry body => cases h; exact holders_responseMessage hs hn body
  | pause body =>
    cases h
    exact holders_decoded hs _ _ fun _ => holders_whileUp hs _ _ ((SameHold.of_fields (s := s) rfl rfl rfl rfl rfl).holders hs)
  | resume body =>
    cases h
    exact holders_decoded hs _ _ fun _ => holders_whileUp hs _ _
      (holders_finishOrders ((SameHold.of_fields (s := s) rfl rfl rfl rfl rfl).holders hs))
  | tenantSet body =>
    cases h
    exact holders_decoded hs _ _ fun w => hrefresh _ ((SameHold.of_fields (s := s) rfl rfl rfl rfl rfl).holders hs)
  | timingSet body =>
    cases h
    exact holders_decoded hs _ _ fun _ => (SameHold.of_fields (s := s) rfl rfl rfl rfl rfl).holders hs
  | positionSet body =>
    cases h
    refine holders_decoded hs _ _ fun w => ?_
    split
    · exact holders_finishOffers ((sameHold_withMasks s w.pos w).holders hs)
    · exact hs
  | statusQuery body => cases h; exact holders_decoded hs _ _ fun _ => holders_notice hs _
  | key p typ body =>
    cases h
    split
    · exact holders_press hs p _
    · exact hs
  | openKey p a => exact press h
  | closeKey p a => exact press h
  | withdrawKey p a => exact press h
  | resumeKey p a => exact press h
  | reviewKey p a => exact press h
  | answerNextKey p a => exact press h
  | pickupKey p a => exact press h
  | loopKey p a => exact press h
  | releaseKey p a => exact press h
  | holdKey p a => exact press h
  | parkKey p a => exact press h
  | extendKey p a => exact press h
  | cancelKey p a => exact press h
  | campKey p a => exact press h
  | clearKey p a => exact press h
  | orderSend => cases h; exact (sameHold_sendOne s).holders hs
  | positionFrameSend p => cases h; exact (sameHold_sendFrame s p).holders hs
  | unknownMessageType typ body => cases h; exact holders_notice hs _

theorem holders_step {s t : State} (hs : s.holdersOk) (hn : (s.orders.map Entry.slot).Nodup) (h : step s = .next t) : t.holdersOk := by
  unfold step at h
  split at h
  · next c rest _ =>
    have hpending : State.holdersOk { s with pending := rest } := (SameHold.of_fields (s := s) rfl rfl rfl rfl rfl).holders hs
    exact holders_exec hpending hn h
  · cases h
    exact (sameHold_idle s).holders hs

end Sys2Proof.Machine

namespace Sys2Proof
open Sys2Proof.Machine

/-- Settles O5: each kind of work keeps the queue list; and seen from each slot, what refers to a call fits its record after every
command, the order whose response is taken being its record's only one. -/
theorem stepKeepsQueueOk : Obligations.StepKeepsQueueOk :=
  ⟨fun _ _ hs h => (event_step h).keeps (fun _ _ w => w.queueOk) hs, fun _ _ ho _ hs h => holders_step hs ho.1 h⟩

end Sys2Proof
end

section
/-! PROOFS. Nothing is left to do after offers, sending and pictures (R50, R127, R156). -/

namespace Sys2Proof.Machine

/-! ### What an offer rests on -/

/-- Two states in which the same offers are possible: records, queue, rotation, tenants, loops, masks and position states. -/
structure SameChoices (s t : State) : Prop where
  slots : t.slots = s.slots
  queue : t.queue = s.queue
  pointer : t.pointer = s.pointer
  tenants : t.tenants = s.tenants
  position : ∀ p, (t.pos p).state = (s.pos p).state ∧ (t.pos p).tenantMask = (s.pos p).tenantMask ∧ (t.pos p).loops = (s.pos p).loops
  inFlight : ∀ i, t.inFlight i = s.inFlight i

namespace SameChoices
variable {s t u : State}

theorem trans (h : SameChoices s t) (h' : SameChoices t u) : SameChoices s u where
  slots := h'.slots.trans h.slots
  queue := h'.queue.trans h.queue
  pointer := h'.pointer.trans h.pointer
  tenants := h'.tenants.trans h.tenants
  position p := ⟨(h'.position p).1.trans (h.position p).1, (h'.position p).2.1.trans (h.position p).2.1,
    (h'.position p).2.2.trans (h.position p).2.2⟩
  inFlight i := (h'.inFlight i).trans (h.inFlight i)

theorem loop (h : SameChoices s t) (p : Pos) (l : LoopNo) : t.loop p l = s.loop p l := by
  unfold State.loop
  rw [(h.position p).2.2]

theorem record (h : SameChoices s t) (i : Slot) : t.record? i = s.record? i := by
  unfold State.record? State.slot
  rw [h.slots]

theorem eligible (h : SameChoices s t) (p : Pos) (i : Slot) : t.eligible p i = s.eligible p i := by
  have howner (r : Record) : t.ownerAllows p r = s.ownerAllows p r := by
    unfold State.ownerAllows
    split
    · rw [(h.position _).1]
    · rfl
  simp only [State.eligible, h.record, h.inFlight, (h.position p).2.1, howner]

theorem offerable (h : SameChoices s t) (p : Pos) (i : Slot) : t.offerable p i = s.offerable p i := by
  have hown : t.ownRecall p i = s.ownRecall p i := by simp only [State.ownRecall, h.record]
  simp only [State.offerable, (h.position p).1, h.eligible, hown]

theorem bestOf (h : SameChoices s t) (is : List Slot) : t.bestOf is = s.bestOf is := by
  have hrank (i : Slot) : t.rankOf i = s.rankOf i := by
    simp only [State.rankOf, State.rank, State.tenant, h.record, h.tenants]
  induction is with
  | nil => rfl
  | cons i is ih => simp only [State.bestOf, ih, hrank]

theorem nextOffer (h : SameChoices s t) : t.nextOffer = s.nextOffer := by
  have hat (p : Pos) : t.offerAt p = s.offerAt p := by
    have hquiet : t.loopsQuiet p = s.loopsQuiet p := by simp only [State.loopsQuiet, h.loop]
    have hidle : t.lowestIdle p = s.lowestIdle p := by simp only [State.lowestIdle, h.loop]
    have hbest : t.bestOf (t.queue.filter fun i => t.offerable p i) = s.bestOf (s.queue.filter fun i => s.offerable p i) := by
      rw [h.bestOf, h.queue, funext (h.offerable p)]
    rw [State.offerAt, State.offerAt, hquiet, hidle, hbest]
  have hrotation : t.rotation = s.rotation := by unfold State.rotation; rw [h.pointer]
  unfold State.nextOffer
  rw [hrotation, funext hat]

end SameChoices

theorem inFlight_of_slots {s t : State} (h : t.orders.map Entry.slot = s.orders.map Entry.slot) (i : Slot) :
    t.inFlight i = s.inFlight i := by
  have hany (os : List Entry) : (os.any fun e => e.slot == i) = (os.map Entry.slot).any fun j => j == i := by
    rw [List.any_map]
    rfl
  rw [State.inFlight, State.inFlight, hany, hany, h]

theorem SentMore.choices {s t : State} (h : SentMore s t) : SameChoices s t := by
  obtain ⟨hframe, hcontent, -⟩ := h
  refine ⟨by rw [hframe], by rw [hframe], by rw [hframe], by rw [hframe], fun p => by rw [hframe]; exact ⟨rfl, rfl, rfl⟩,
    inFlight_of_slots ?_⟩
  have := congrArg (List.map Prod.fst) hcontent
  rwa [List.map_map, List.map_map] at this

theorem SameButTxq.choices {s t : State} (h : SameButTxq s t) : SameChoices s t := by
  obtain ⟨hframe, hpos⟩ := h
  exact ⟨by rw [hframe], by rw [hframe], by rw [hframe], by rw [hframe], fun p => by rw [hpos]; exact ⟨rfl, rfl, rfl⟩,
    inFlight_of_slots (by rw [hframe])⟩

theorem nextOffer_finishOffers (s : State) : s.finishOffers.nextOffer = none := by
  have hsent := (sendOrders_more s.makeOffers).choices.nextOffer
  have hshown := (refresh_same s.makeOffers.sendOrders).choices.nextOffer
  exact hshown.trans (hsent.trans (makeOffers_exhausts s))

theorem SameButTxq.sends {s t : State} (h : SameButTxq s t) : t.sends ↔ s.sends := by
  have hframe := h.1
  have horders : t.orders = s.orders := by rw [hframe]
  have hwindow : t.window = s.window := by rw [hframe]
  have hlink : t.link = s.link := by rw [hframe]
  have hpaused : t.paused = s.paused := by rw [hframe]
  simp only [State.sends, State.maySend, State.oldestWaiting, horders, hwindow, hlink, hpaused]

theorem oldestWaiting_finishOffers {s : State} (h : s.finishOffers.maySend = true) : s.finishOffers.oldestWaiting = none := by
  by_contra hne
  exact sendOrders_exhausts s.makeOffers ((refresh_same s.makeOffers.sendOrders).sends.1 ⟨h, hne⟩)

/-! ### The items of a transmit queue -/

theorem mem_allItems (it : Item) : it ∈ allItems := by
  cases it with
  | lamp k => revert k; decide
  | line j => revert j; decide

/-- An item that differs stands in a transmit queue in step. -/
theorem mem_txqInStep_of_differs {s : State} {p : Pos} {it : Item} (h : s.itemDiffers p it = true) :
    ∃ f, TxEntry.item it f ∈ s.txqInStep p := by
  unfold State.txqInStep
  by_cases hin : ((s.pos p).txq.any fun e => e.isItem it) = true
  · obtain ⟨e, he, hitem⟩ := List.any_eq_true.1 hin
    obtain ⟨f, rfl⟩ := (isItem_iff e it).1 hitem
    exact ⟨f, List.mem_append_left _ (List.mem_filter.2 ⟨he, show (f || s.itemDiffers p it) = true by rw [h, Bool.or_true]⟩)⟩
  · refine ⟨false, List.mem_append_right _ (List.mem_map.2 ⟨it, List.mem_filter.2 ⟨mem_allItems it, ?_⟩, rfl⟩)⟩
    rw [h, Bool.eq_false_iff.2 hin]
    rfl

/-- An item in a transmit queue in step, but for those of a carrier return, differs. -/
theorem differs_of_mem_txqInStep {s : State} {p : Pos} {it : Item} (h : TxEntry.item it false ∈ s.txqInStep p) :
    s.itemDiffers p it = true := by
  obtain h | h := List.mem_append.1 h
  · exact (Bool.false_or _).symm.trans (List.mem_filter.1 h).2
  · obtain ⟨it', hit, heq⟩ := List.mem_map.1 h
    cases heq
    exact (Bool.and_eq_true_iff.1 (List.mem_filter.1 hit).2).1

theorem filter_isItem_map (its : List Item) (it : Item) :
    ((its.map fun x => TxEntry.item x false).filter fun e => e.isItem it) = (its.filter fun x => x == it).map fun x => .item x false := by
  rw [List.filter_map]
  rfl

theorem filter_allItems (it : Item) : (allItems.filter fun x => x == it).length = 1 := by
  cases it with
  | lamp k => revert k; decide
  | line j => revert j; decide

/-- A transmit queue in step has an item twice only if it had it before. -/
theorem once_txqInStep {s : State} {p : Pos} {it : Item} (h : ((s.pos p).txq.filter fun e => e.isItem it).length ≤ 1) :
    ((s.txqInStep p).filter fun e => e.isItem it).length ≤ 1 := by
  unfold State.txqInStep
  rw [List.filter_append, List.length_append, filter_isItem_map, List.length_map]
  have hstay (P : TxEntry → Bool) : (((s.pos p).txq.filter P).filter fun e => e.isItem it).length ≤
      ((s.pos p).txq.filter fun e => e.isItem it).length := (List.filter_sublist.filter _).length_le
  have hjoin (Q : Item → Bool) : ((allItems.filter Q).filter fun x => x == it).length ≤ 1 :=
    (List.filter_sublist.filter _).length_le.trans (filter_allItems it).le
  by_cases hin : ((s.pos p).txq.any fun e => e.isItem it) = true
  · have hnone : ((allItems.filter fun x => s.itemDiffers p x && !(s.pos p).txq.any fun e => e.isItem x).filter fun x => x == it) = [] := by
      refine List.filter_eq_nil_iff.2 fun x hx hxit => ?_
      have := (Bool.and_eq_true_iff.1 (List.mem_filter.1 hx).2).2
      rw [beq_iff_eq.1 hxit, hin] at this
      cases this
    rw [hnone]
    exact (hstay _).trans h
  · have hnone : ((s.pos p).txq.filter fun e => e.isItem it) = [] :=
      List.filter_eq_nil_iff.2 fun e he hc => hin (List.any_eq_true.2 ⟨e, he, hc⟩)
    rw [hnone, List.length_nil] at hstay
    have := Nat.add_le_add (hstay fun e => match e with
      | .tone _ => true
      | .item x forced => forced || s.itemDiffers p x) (hjoin fun x => s.itemDiffers p x && !(s.pos p).txq.any fun e => e.isItem x)
    exact this

/-! ### Offers add tones alone to a transmit queue -/

/-- The items of a transmit queue. -/
def itemsOf (txq : List TxEntry) : List TxEntry := txq.filter fun e => !e.isTone

theorem filter_isItem_itemsOf (txq : List TxEntry) (it : Item) :
    (txq.filter fun e => e.isItem it) = (itemsOf txq).filter fun e => e.isItem it := by
  rw [itemsOf, List.filter_filter]
  refine List.filter_congr fun e _ => ?_
  cases e with
  | tone _ => rfl
  | item x f => exact (Bool.and_true _).symm

theorem itemsOf_sound (q : Position) (x : Tone) : itemsOf (q.sound x).txq = itemsOf q.txq := by
  rw [sound_eq, itemsOf, itemsOf, List.filter_append]
  split
  · exact List.append_nil _
  · exact List.append_nil _

theorem itemsOf_raiseLoop (q : Position) (now : Tick) (k : AlertKind) (l : LoopNo) :
    itemsOf (q.raiseLoop now k l).txq = itemsOf q.txq := by
  unfold Position.raiseLoop Position.soundEntered
  split
  · split
    · exact itemsOf_sound _ _
    · rfl
  · rfl

theorem itemsOf_makeOffers (s : State) (p : Pos) : itemsOf (s.makeOffers.pos p).txq = itemsOf (s.pos p).txq := by
  refine foldl_related (R := fun s t : State => itemsOf (t.pos p).txq = itemsOf (s.pos p).txq) (fun _ => rfl)
    (fun h h' => h'.trans h) _ (fun t _ => ?_) allPos s
  obtain h | ⟨q, l, i, -, h⟩ := offerOnce_cases t <;> rw [h]
  have hpos : (t.offer q l i).pos p =
      if q = p then ((t.pos q).setLoop l (.alerting i)).raiseLoop t.tick .offer l else t.pos p := by
    unfold State.offer State.armNow
    simp only
    generalize hu : (t.updRec i fun r => { r with mark := some (q, l) }).updRec i (fun r => r.armAt .offer _) = u
    have hpos (x : Pos) : u.pos x = t.pos x := by subst hu; rw [updRec_pos, updRec_pos]
    have htick : u.tick = t.tick := by subst hu; rw [updRec_tick, updRec_tick]
    show ((u.setLoop q l (.alerting i)).raiseLoop q .offer l).pos p = _
    rw [State.raiseLoop, pos_updPos, State.setLoop, pos_updPos_self, pos_updPos, hpos, hpos]
    split
    · show Position.raiseLoop _ u.tick _ _ = _
      rw [htick]
    · rfl
  rw [hpos]
  split
  · next hq =>
    subst hq
    exact itemsOf_raiseLoop _ _ _ _
  · rfl

end Sys2Proof.Machine
end

section
/-! PROOFS. A key evaluated neither reads nor changes a key buffer (R74, R75). -/

namespace Sys2Proof.Machine

/-- Two states that differ in the key buffers alone; those of the second are `K`. -/
def SameButKeys (K : Pos → List KeyMsg) (s t : State) : Prop :=
  t = { s with positions := t.positions } ∧ ∀ p, t.pos p = { s.pos p with keys := K p }

/-- A change of a position that neither reads nor changes its key buffer. -/
def BlindToKeys (f : Position → Position) : Prop := ∀ q ks, f { q with keys := ks } = { f q with keys := ks }

theorem blind_sound (x : Tone) : BlindToKeys fun q => q.sound x := fun q ks => by
  simp only [sound_eq]

theorem blind_keepAlerts (keep : Alert → Bool) : BlindToKeys fun q => q.keepAlerts keep := fun _ _ => rfl

namespace SameButKeys
variable {K : Pos → List KeyMsg} {s t : State}

/-! ### What reads alike -/

theorem choices (h : SameButKeys K s t) : SameChoices s t := by
  obtain ⟨hframe, hpos⟩ := h
  exact ⟨by rw [hframe], by rw [hframe], by rw [hframe], by rw [hframe], fun p => by rw [hpos]; exact ⟨rfl, rfl, rfl⟩,
    inFlight_of_slots (by rw [hframe])⟩

theorem state (h : SameButKeys K s t) (p : Pos) : (t.pos p).state = (s.pos p).state := by rw [h.2]

theorem loop (h : SameButKeys K s t) (p : Pos) (l : LoopNo) : t.loop p l = s.loop p l := h.choices.loop p l

theorem record (h : SameButKeys K s t) (i : Slot) : t.record? i = s.record? i := h.choices.record i

theorem orbit (h : SameButKeys K s t) (o : OrbitNo) : t.orbit o = s.orbit o := by
  unfold State.orbit
  rw [h.1]

theorem holdsVoice (h : SameButKeys K s t) (p : Pos) (l : LoopNo) : t.holdsVoice p l = s.holdsVoice p l := by
  have horders : t.orders = s.orders := by rw [h.1]
  simp only [State.holdsVoice, State.retrieved, h.loop, horders]

theorem voiceFree (h : SameButKeys K s t) (p : Pos) : t.voiceFree p = s.voiceFree p := by
  simp only [State.voiceFree, h.holdsVoice]

theorem keyWaits (h : SameButKeys K s t) (p : Pos) (k : KeyMsg) : t.keyWaits p k = s.keyWaits p k := by
  simp only [State.keyWaits, h.loop, h.choices.inFlight]

theorem stepOf (h : SameButKeys K s t) (i : Slot) : t.stepOf i = s.stepOf i := by simp only [State.stepOf, h.record]

/-! ### What changes alike -/

theorem updPos (h : SameButKeys K s t) (p : Pos) {f : Position → Position} (hf : BlindToKeys f) :
    SameButKeys K (s.updPos p f) (t.updPos p f) := by
  obtain ⟨hframe, hpos⟩ := h
  refine ⟨by rw [hframe]; rfl, fun q => ?_⟩
  rw [pos_updPos, pos_updPos]
  split
  · next hq => rw [hpos, hf, hq]
  · exact hpos q

/-- Work that leaves the positions and does not read them. -/
theorem of_rest (h : SameButKeys K s t) {s' t' : State} (hs : s'.positions = s.positions) (ht : t'.positions = t.positions)
    (hrest : t' = { s' with positions := t.positions }) : SameButKeys K s' t' := by
  refine ⟨by rw [ht]; exact hrest, fun p => ?_⟩
  have hpos := h.2 p
  unfold State.pos at hpos ⊢
  rw [hs, ht]
  exact hpos

theorem updRec (h : SameButKeys K s t) (i : Slot) (f : Record → Record) : SameButKeys K (s.updRec i f) (t.updRec i f) := by
  refine h.of_rest (updRec_positions s i f) (updRec_positions t i f) ?_
  obtain ⟨hframe, -⟩ := h
  generalize t.positions = P at hframe
  subst hframe
  unfold State.updRec
  show (match s.slot i with | .live r => _ | _ => _) = _
  cases s.slot i <;> rfl

theorem issue (h : SameButKeys K s t) (i : Slot) (o : Order) (m : Mark) : SameButKeys K (s.issue i o m) (t.issue i o m) := by
  refine h.of_rest (by rw [issue_frame]) (by rw [issue_frame]) ?_
  obtain ⟨hframe, -⟩ := h
  generalize t.positions = P at hframe
  subst hframe
  unfold State.issue
  show (match s.record? i with | some r => if s.inFlight i = true then _ else _ | none => _) = _
  cases s.record? i with
  | none => rfl
  | some r => cases s.inFlight i <;> rfl

theorem setOrbit (h : SameButKeys K s t) (o : OrbitNo) (x : Orbit) : SameButKeys K (s.setOrbit o x) (t.setOrbit o x) := by
  refine h.of_rest rfl rfl ?_
  rw [h.1]
  rfl

theorem errorTone (h : SameButKeys K s t) (p : Pos) : SameButKeys K (s.errorTone p) (t.errorTone p) := h.updPos p (blind_sound _)

theorem loopIdle (h : SameButKeys K s t) (p : Pos) (l : LoopNo) : SameButKeys K (s.loopIdle p l) (t.loopIdle p l) :=
  h.updPos p fun _ _ => rfl

theorem loopConnecting (h : SameButKeys K s t) (p : Pos) (l : LoopNo) (i : Slot) :
    SameButKeys K (s.loopConnecting p l i) (t.loopConnecting p l i) := h.updPos p fun _ _ => rfl

theorem setLoop (h : SameButKeys K s t) (p : Pos) (l : LoopNo) (x : LoopState) : SameButKeys K (s.setLoop p l x) (t.setLoop p l x) :=
  h.updPos p fun _ _ => rfl

theorem noteFor (h : SameButKeys K s t) (p : Pos) (l : LoopNo) (call : Option Slot) (content : List Byte) :
    SameButKeys K (s.noteFor p l call content) (t.noteFor p l call content) := by
  have htag : t.tagLine call l = s.tagLine call l := by rw [h.1]; rfl
  unfold State.noteFor
  rw [htag]
  exact h.updPos p fun _ _ => rfl

theorem leaveHolder (h : SameButKeys K s t) (i : Slot) : SameButKeys K (s.leaveHolder i) (t.leaveHolder i) := by
  unfold State.leaveHolder
  rw [h.record]
  cases s.record? i with
  | none => exact h
  | some r =>
    cases hl : r.loc with
    | queued =>
      simp only [hl]
      exact h.of_rest rfl rfl (by rw [h.1])
    | loop p l => simp only [hl]; exact h.loopIdle p l
    | parked o =>
      simp only [hl]
      exact h.of_rest (s' := s.freeOrbits i) (t' := t.freeOrbits i) rfl rfl (by rw [h.1]; rfl)
    | camped ext =>
      simp only [hl]
      exact h.of_rest rfl rfl (by rw [h.1])
    | extended ext => simp only [hl]; exact h
    | rescue m => simp only [hl]; exact h

theorem placeInOrbit (h : SameButKeys K s t) (i : Slot) (o : OrbitNo) (p : Pos) :
    SameButKeys K (s.placeInOrbit i o p) (t.placeInOrbit i o p) := by
  have htiming : t.timing = s.timing := by rw [h.1]
  have htick : t.tick = s.tick := by rw [h.1]
  unfold State.placeInOrbit State.armNow
  simp only [updRec_tick]
  show SameButKeys K (((s.setOrbit o (.occupied i)).updRec i _).updRec i fun r => r.armAt .parkRecall (s.tick + s.timing.parkRecall))
    (((t.setOrbit o (.occupied i)).updRec i _).updRec i fun r => r.armAt .parkRecall (t.tick + t.timing.parkRecall))
  rw [htiming, htick]
  exact ((h.setOrbit o _).updRec i _).updRec i _

theorem nowStaffed (h : SameButKeys K s t) : SameButKeys K s.nowStaffed t.nowStaffed := h.of_rest rfl rfl (by rw [h.1]; rfl)

theorem nowUnstaffed (h : SameButKeys K s t) : SameButKeys K s.nowUnstaffed t.nowUnstaffed := by
  have hany : t.anyStaffed = s.anyStaffed := by simp only [State.anyStaffed, h.state]
  unfold State.nowUnstaffed
  rw [hany]
  split
  · exact h
  · exact h.of_rest rfl rfl (by rw [h.1])

/-! ### Position keys -/

theorem claimRequest (h : SameButKeys K s t) (p : Pos) (l : LoopNo) (i : Slot) (how : Request) :
    SameButKeys K (s.claimRequest p l i how) (t.claimRequest p l i how) := by
  unfold State.claimRequest State.grant
  rw [h.record, h.choices.inFlight]
  cases s.record? i with
  | none => exact h.errorTone p
  | some r =>
    simp only
    split
    · exact h.errorTone p
    · split
      · exact (h.updRec i _).loopConnecting p l i
      · split
        · exact ((h.updRec i _).loopConnecting p l i).issue i _ _
        · exact h.errorTone p

theorem keyOpen (h : SameButKeys K s t) (p : Pos) : SameButKeys K (s.keyOpen p) (t.keyOpen p) := by
  unfold State.keyOpen
  rw [h.state]
  split
  · exact (h.updPos p fun _ _ => rfl).nowStaffed
  · exact h.errorTone p

theorem keyClose (h : SameButKeys K s t) (p : Pos) : SameButKeys K (s.keyClose p) (t.keyClose p) := by
  unfold State.keyClose
  simp only [h.state, h.loop]
  split
  · exact (h.updPos p fun _ _ => rfl).nowUnstaffed
  · exact h.errorTone p

theorem keyWithdraw (h : SameButKeys K s t) (p : Pos) : SameButKeys K (s.keyWithdraw p) (t.keyWithdraw p) := by
  unfold State.keyWithdraw
  rw [h.state]
  split
  · exact h.updPos p fun _ _ => rfl
  · exact h.errorTone p

theorem keyResume (h : SameButKeys K s t) (p : Pos) : SameButKeys K (s.keyResume p) (t.keyResume p) := by
  unfold State.keyResume
  rw [h.state]
  split
  · exact h.updPos p fun _ _ => rfl
  · exact h.errorTone p

theorem keyReview (h : SameButKeys K s t) (p : Pos) : SameButKeys K (s.keyReview p) (t.keyReview p) := by
  have halerts : (t.pos p).alerts = (s.pos p).alerts := by rw [h.2]
  have hnote (a : Alert) : t.reviewNote p a = s.reviewNote p a := by
    have htag (call : Option Slot) (l : LoopNo) : t.tagLine call l = s.tagLine call l := by rw [h.1]; rfl
    simp only [State.reviewNote, h.loop, htag]
  unfold State.keyReview
  rw [h.state, halerts]
  split
  · cases (s.pos p).alerts with
    | nil => exact h.errorTone p
    | cons a as =>
      simp only [hnote]
      exact h.updPos p fun _ _ => rfl
  · exact h.errorTone p

theorem lowestIdle (h : SameButKeys K s t) (p : Pos) : t.lowestIdle p = s.lowestIdle p := by simp only [State.lowestIdle, h.loop]

theorem keyAnswerNext (h : SameButKeys K s t) (p : Pos) : SameButKeys K (s.keyAnswerNext p) (t.keyAnswerNext p) := by
  have hquiet : t.loopsQuiet p = s.loopsQuiet p := by simp only [State.loopsQuiet, h.loop]
  have hbest : t.bestOf (t.queue.filter fun i => t.eligible p i) = s.bestOf (s.queue.filter fun i => s.eligible p i) := by
    rw [h.choices.bestOf, h.choices.queue, funext (h.choices.eligible p)]
  unfold State.keyAnswerNext
  rw [h.state, h.voiceFree, h.lowestIdle, hquiet, hbest]
  split
  · split
    · exact h.claimRequest p _ _ _
    · exact h.errorTone p
  · exact h.errorTone p

theorem keyPickup (h : SameButKeys K s t) (p : Pos) (a : KeyArgs) : SameButKeys K (s.keyPickup p a) (t.keyPickup p a) := by
  unfold State.keyPickup
  simp only [h.state, h.voiceFree, h.lowestIdle, h.orbit]
  split
  · split
    · exact h.claimRequest p _ _ _
    · exact h.errorTone p
  · exact h.errorTone p

/-! ### Loop keys -/

theorem setStep (h : SameButKeys K s t) (i : Slot) (n : Fin 7) : SameButKeys K (s.setStep i n) (t.setStep i n) := h.updRec i _

theorem keyLoop (h : SameButKeys K s t) (p : Pos) (l : LoopNo) : SameButKeys K (s.keyLoop p l) (t.keyLoop p l) := by
  unfold State.keyLoop
  rw [h.voiceFree, h.loop]
  split
  · cases s.loop p l with
    | alerting i => exact h.claimRequest p l i _
    | held i => exact h.issue i _ _
    | recalling i => exact h.issue i _ _
    | _ => exact h.errorTone p
  · exact h.errorTone p

theorem keyHold (h : SameButKeys K s t) (p : Pos) (l : LoopNo) : SameButKeys K (s.keyHold p l) (t.keyHold p l) := by
  unfold State.keyHold
  rw [h.loop]
  cases s.loop p l with
  | talk i => exact h.issue i _ _
  | _ => exact h.errorTone p

theorem keyClear (h : SameButKeys K s t) (p : Pos) (l : LoopNo) : SameButKeys K (s.keyClear p l) (t.keyClear p l) := by
  unfold State.keyClear
  rw [h.loop]
  cases s.loop p l with
  | locked i => exact h.issue i _ _
  | _ => exact h.errorTone p

theorem keyRelease (h : SameButKeys K s t) (p : Pos) (l : LoopNo) : SameButKeys K (s.keyRelease p l) (t.keyRelease p l) := by
  unfold State.keyRelease
  rw [h.loop]
  cases s.loop p l with
  | talk i => exact h.issue i _ _
  | held i => exact h.issue i _ _
  | recalling i => exact h.issue i _ _
  | extend i =>
    simp only [h.stepOf]
    split
    · exact (h.issue i _ _).setStep i 6
    · split
      · exact (h.issue i _ _).setStep i 6
      · exact h.errorTone p
  | _ => exact h.errorTone p

theorem keyPark (h : SameButKeys K s t) (p : Pos) (l : LoopNo) (a : KeyArgs) : SameButKeys K (s.keyPark p l a) (t.keyPark p l a) := by
  have hpark : t.parkOrbit a = s.parkOrbit a := by simp only [State.parkOrbit, State.lowestOrbit, h.orbit]
  unfold State.keyPark
  rw [hpark, h.loop]
  split
  · exact (h.setOrbit _ _).issue _ _ _
  · exact ((h.noteFor p l _ _).leaveHolder _).placeInOrbit _ _ p
  · exact h.errorTone p

theorem keyExtend (h : SameButKeys K s t) (p : Pos) (l : LoopNo) (a : KeyArgs) : SameButKeys K (s.keyExtend p l a) (t.keyExtend p l a) := by
  unfold State.keyExtend
  rw [h.loop]
  split
  · exact ((h.setLoop p l _).updRec _ _).issue _ _ _
  · exact h.errorTone p

theorem keyCancel (h : SameButKeys K s t) (p : Pos) (l : LoopNo) : SameButKeys K (s.keyCancel p l) (t.keyCancel p l) := by
  unfold State.keyCancel
  rw [h.loop]
  cases s.loop p l with
  | extend i =>
    simp only [h.stepOf]
    split
    · exact (h.issue i _ _).setStep i 6
    · split
      · exact (h.issue i _ _).setStep i 6
      · exact h.errorTone p
  | _ => exact h.errorTone p

theorem keyCamp (h : SameButKeys K s t) (p : Pos) (l : LoopNo) : SameButKeys K (s.keyCamp p l) (t.keyCamp p l) := by
  have hroom (ext : Digits) : t.campRoom ext = s.campRoom ext := by rw [h.1]; rfl
  unfold State.keyCamp
  rw [h.loop]
  cases s.loop p l with
  | extend i =>
    simp only [h.record, h.stepOf, hroom]
    cases (s.record? i).bind fun r => r.dest with
    | none => exact h.errorTone p
    | some ext =>
      simp only
      split
      · exact (h.issue i _ _).setStep i 6
      · exact h.errorTone p
  | _ => exact h.errorTone p

theorem loopKey (h : SameButKeys K s t) (p : Pos) (k : KeyKind) (a : KeyArgs) (l : LoopNo) :
    SameButKeys K (s.loopKey p k a l) (t.loopKey p k a l) := by
  cases k with
  | loop => exact h.keyLoop p l
  | release => exact h.keyRelease p l
  | hold => exact h.keyHold p l
  | park => exact h.keyPark p l a
  | extend => exact h.keyExtend p l a
  | cancel => exact h.keyCancel p l
  | camp => exact h.keyCamp p l
  | clear => exact h.keyClear p l
  | _ => exact h.errorTone p

theorem evalKey (h : SameButKeys K s t) (p : Pos) (k : KeyMsg) : SameButKeys K (s.evalKey p k) (t.evalKey p k) := by
  obtain ⟨kind, a⟩ := k
  have hloop : SameButKeys K (match loopOf a.loop with
      | some l => if (s.pos p).state.staffed then s.loopKey p kind a l else s.errorTone p
      | none => s.errorTone p) (match loopOf a.loop with
      | some l => if (t.pos p).state.staffed then t.loopKey p kind a l else t.errorTone p
      | none => t.errorTone p) := by
    rw [h.state]
    cases loopOf a.loop with
    | none => exact h.errorTone p
    | some l =>
      simp only
      split
      · exact h.loopKey p kind a l
      · exact h.errorTone p
  unfold State.evalKey
  by_cases hok : (loopOk kind a && argumentOk kind a) = true
  · rw [if_pos hok, if_pos hok]
    cases kind with
    | opening => exact h.keyOpen p
    | closing => exact h.keyClose p
    | withdraw => exact h.keyWithdraw p
    | resume => exact h.keyResume p
    | review => exact h.keyReview p
    | answerNext => exact h.keyAnswerNext p
    | pickup => exact h.keyPickup p a
    | _ => exact hloop
  · rw [if_neg hok, if_neg hok]
    exact h.errorTone p

end SameButKeys

theorem sameButKeys_self (s : State) : SameButKeys (fun p => (s.pos p).keys) s s := ⟨rfl, fun _ => rfl⟩

theorem sameButKeys_set (s : State) (p : Pos) (ks : List KeyMsg) :
    SameButKeys (fun q => if q = p then ks else (s.pos q).keys) s (s.updPos p fun q => { q with keys := ks }) := by
  refine ⟨rfl, fun q => ?_⟩
  rw [pos_updPos]
  by_cases hq : p = q
  · subst hq
    simp only [if_true]
  · simp only [if_neg hq, if_neg (Ne.symm hq)]

/-- A state is given by another and its key buffers. -/
theorem SameButKeys.unique {K : Pos → List KeyMsg} {s t u : State} (h : SameButKeys K s t) (h' : SameButKeys K s u) : t = u := by
  have hpos : t.positions = u.positions := by
    refine Vector.ext fun n hn => ?_
    exact (h.2 ⟨n, hn⟩).trans (h'.2 ⟨n, hn⟩).symm
  rw [h.1, h'.1, hpos]

/-- The key buffers stay as they are when a key is evaluated. -/
theorem keys_evalKey (s : State) (p q : Pos) (k : KeyMsg) : ((s.evalKey p k).pos q).keys = (s.pos q).keys := by
  have := ((sameButKeys_self s).evalKey p k).2 q
  rw [this]

/-- Whether the buffer is set before or after a key is evaluated makes no difference. -/
theorem evalKey_setKeys (s : State) (p q : Pos) (ks : List KeyMsg) (k : KeyMsg) :
    (s.updPos q fun x => { x with keys := ks }).evalKey p k = (s.evalKey p k).updPos q fun x => { x with keys := ks } := by
  refine ((sameButKeys_set s q ks).evalKey p k).unique ?_
  have := sameButKeys_set (s.evalKey p k) q ks
  simpa only [keys_evalKey] using this

end Sys2Proof.Machine
end

section
/-! PROOFS. A key works at its own position alone, and no key ends a wait (R74). -/

namespace Sys2Proof.Machine

/-- Work at one position: the other positions stay, and no order leaves the order list. -/
def OnlyAt (p : Pos) (s t : State) : Prop := s.sameOthers t p ∧ s.orders <+: t.orders

namespace OnlyAt
variable {p : Pos} {s t u : State}

theorem refl (p : Pos) (s : State) : OnlyAt p s s := ⟨fun _ _ => rfl, List.prefix_rfl⟩

theorem trans (h : OnlyAt p s t) (h' : OnlyAt p t u) : OnlyAt p s u :=
  ⟨fun q hq => (h'.1 q hq).trans (h.1 q hq), h.2.trans h'.2⟩

theorem of_positions (h : t.positions = s.positions) (ho : s.orders <+: t.orders) : OnlyAt p s t :=
  ⟨fun _ _ => by unfold State.pos; rw [h], ho⟩

theorem updPos (h : OnlyAt p s t) (f : Position → Position) : OnlyAt p s (t.updPos p f) :=
  h.trans ⟨fun q hq => pos_updPos_ne _ _ _ _ (Ne.symm hq), List.prefix_rfl⟩

theorem updRec (h : OnlyAt p s t) (i : Slot) (f : Record → Record) : OnlyAt p s (t.updRec i f) :=
  h.trans (.of_positions (updRec_positions t i f) (by rw [updRec_frame]))

theorem setOrbit (h : OnlyAt p s t) (o : OrbitNo) (x : Orbit) : OnlyAt p s (t.setOrbit o x) :=
  h.trans (.of_positions rfl List.prefix_rfl)

theorem issue (h : OnlyAt p s t) (i : Slot) (o : Order) (m : Mark) : OnlyAt p s (t.issue i o m) := by
  refine h.trans (.of_positions (issue_positions t i o m) ?_)
  obtain h | ⟨r, -, -, h⟩ := issue_cases t i o m <;> rw [h]
  exact List.prefix_append _ _

theorem errorTone (h : OnlyAt p s t) : OnlyAt p s (t.errorTone p) := h.updPos _

theorem setStep (h : OnlyAt p s t) (i : Slot) (n : Fin 7) : OnlyAt p s (t.setStep i n) := h.updRec i _

/-- A call on a loop of the position leaves its holder. -/
theorem leaveHolder (h : OnlyAt p s t) {i : Slot} {r : Record} {l : LoopNo} (hr : t.record? i = some r) (hl : r.loc = .loop p l) :
    OnlyAt p s (t.leaveHolder i) := by
  rw [leaveHolder_loop hr hl]
  exact h.updPos _

theorem placeInOrbit (h : OnlyAt p s t) (i : Slot) (o : OrbitNo) : OnlyAt p s (t.placeInOrbit i o p) :=
  ((h.setOrbit o _).updRec i _).updRec i _

theorem nowUnstaffed (h : OnlyAt p s t) : OnlyAt p s t.nowUnstaffed := by
  unfold State.nowUnstaffed
  split
  · exact h
  · exact h.trans (.of_positions rfl List.prefix_rfl)

theorem inFlight (h : OnlyAt p s t) {i : Slot} (hi : s.inFlight i = true) : t.inFlight i = true := by
  obtain ⟨e, he, hslot⟩ := (inFlight_iff s i).1 hi
  exact (inFlight_iff t i).2 ⟨e, h.2.subset he, hslot⟩

end OnlyAt

/-! ### Every key -/

section
variable (s : State) (p : Pos) (l : LoopNo)

theorem onlyAt_claimRequest (i : Slot) (how : Request) : OnlyAt p s (s.claimRequest p l i how) := by
  unfold State.claimRequest State.grant
  split
  · split
    · exact (OnlyAt.refl p s).errorTone
    · split
      · exact ((OnlyAt.refl p s).updRec i _).updPos _
      · split
        · exact (((OnlyAt.refl p s).updRec i _).updPos _).issue i _ _
        · exact (OnlyAt.refl p s).errorTone
  · exact (OnlyAt.refl p s).errorTone

theorem onlyAt_keyOpen : OnlyAt p s (s.keyOpen p) := by
  unfold State.keyOpen
  split
  · exact ((OnlyAt.refl p s).updPos fun q => { q with state := .opened }).trans (.of_positions rfl List.prefix_rfl)
  · exact (OnlyAt.refl p s).errorTone

theorem onlyAt_keyClose : OnlyAt p s (s.keyClose p) := by
  unfold State.keyClose
  split
  · exact ((OnlyAt.refl p s).updPos _).nowUnstaffed
  · exact (OnlyAt.refl p s).errorTone

theorem onlyAt_keyWithdraw : OnlyAt p s (s.keyWithdraw p) := by
  unfold State.keyWithdraw
  split <;> exact (OnlyAt.refl p s).updPos _

theorem onlyAt_keyResume : OnlyAt p s (s.keyResume p) := by
  unfold State.keyResume
  split <;> exact (OnlyAt.refl p s).updPos _

theorem onlyAt_keyReview : OnlyAt p s (s.keyReview p) := by
  unfold State.keyReview
  split
  · split <;> exact (OnlyAt.refl p s).updPos _
  · exact (OnlyAt.refl p s).errorTone

theorem onlyAt_keyAnswerNext : OnlyAt p s (s.keyAnswerNext p) := by
  unfold State.keyAnswerNext
  split
  · split
    · exact onlyAt_claimRequest s p _ _ _
    · exact (OnlyAt.refl p s).errorTone
  · exact (OnlyAt.refl p s).errorTone

theorem onlyAt_keyPickup (a : KeyArgs) : OnlyAt p s (s.keyPickup p a) := by
  unfold State.keyPickup
  split
  · split
    · exact onlyAt_claimRequest s p _ _ _
    · exact (OnlyAt.refl p s).errorTone
  · exact (OnlyAt.refl p s).errorTone

theorem onlyAt_keyLoop : OnlyAt p s (s.keyLoop p l) := by
  unfold State.keyLoop
  split
  · split
    · exact onlyAt_claimRequest s p l _ _
    · exact (OnlyAt.refl p s).issue _ _ _
    · exact (OnlyAt.refl p s).issue _ _ _
    · exact (OnlyAt.refl p s).errorTone
  · exact (OnlyAt.refl p s).errorTone

theorem onlyAt_keyHold : OnlyAt p s (s.keyHold p l) := by
  unfold State.keyHold
  split
  · exact (OnlyAt.refl p s).issue _ _ _
  · exact (OnlyAt.refl p s).errorTone

theorem onlyAt_keyClear : OnlyAt p s (s.keyClear p l) := by
  unfold State.keyClear
  split
  · exact (OnlyAt.refl p s).issue _ _ _
  · exact (OnlyAt.refl p s).errorTone

theorem onlyAt_keyRelease : OnlyAt p s (s.keyRelease p l) := by
  unfold State.keyRelease
  split
  · exact (OnlyAt.refl p s).issue _ _ _
  · exact (OnlyAt.refl p s).issue _ _ _
  · exact (OnlyAt.refl p s).issue _ _ _
  · split
    · exact ((OnlyAt.refl p s).issue _ _ _).setStep _ 6
    · split
      · exact ((OnlyAt.refl p s).issue _ _ _).setStep _ 6
      · exact (OnlyAt.refl p s).errorTone
  · exact (OnlyAt.refl p s).errorTone

theorem onlyAt_keyExtend (a : KeyArgs) : OnlyAt p s (s.keyExtend p l a) := by
  unfold State.keyExtend
  split
  · exact (((OnlyAt.refl p s).updPos _).updRec _ _).issue _ _ _
  · exact (OnlyAt.refl p s).errorTone

theorem onlyAt_keyCancel : OnlyAt p s (s.keyCancel p l) := by
  unfold State.keyCancel
  split
  · split
    · exact ((OnlyAt.refl p s).issue _ _ _).setStep _ 6
    · split
      · exact ((OnlyAt.refl p s).issue _ _ _).setStep _ 6
      · exact (OnlyAt.refl p s).errorTone
  · exact (OnlyAt.refl p s).errorTone

theorem onlyAt_keyCamp : OnlyAt p s (s.keyCamp p l) := by
  unfold State.keyCamp
  split
  · split
    · split
      · exact ((OnlyAt.refl p s).issue _ _ _).setStep _ 6
      · exact (OnlyAt.refl p s).errorTone
    · exact (OnlyAt.refl p s).errorTone
  · exact (OnlyAt.refl p s).errorTone

variable {s p l}

/-- The call that Park takes off a HELD loop has that loop as its holder. -/
theorem onlyAt_keyPark (hs : s.holdersOk) (hf : s.loopSettled p l) (a : KeyArgs) : OnlyAt p s (s.keyPark p l a) := by
  unfold State.keyPark
  split
  · exact ((OnlyAt.refl p s).setOrbit _ _).issue _ _ _
  · next o i _ hx =>
    obtain ⟨-, r, h, hloc⟩ := carried_of_settled_loop hs hf (i := i) (by rw [hx]; rfl)
    have hr : (s.noteFor p l (some i) (parkedText o)).record? i = some r := (record?_eq_some _ i).2 h.fitted.live
    exact (((OnlyAt.refl p s).updPos _).leaveHolder hr hloc).placeInOrbit i o
  · exact (OnlyAt.refl p s).errorTone

theorem onlyAt_loopKey (hs : s.holdersOk) (hf : s.loopSettled p l) (k : KeyKind) (a : KeyArgs) : OnlyAt p s (s.loopKey p k a l) := by
  cases k with
  | loop => exact onlyAt_keyLoop s p l
  | release => exact onlyAt_keyRelease s p l
  | hold => exact onlyAt_keyHold s p l
  | park => exact onlyAt_keyPark hs hf a
  | extend => exact onlyAt_keyExtend s p l a
  | cancel => exact onlyAt_keyCancel s p l
  | camp => exact onlyAt_keyCamp s p l
  | clear => exact onlyAt_keyClear s p l
  | _ => exact (OnlyAt.refl p s).errorTone

theorem onlyAt_evalKey {k : KeyMsg} (hs : s.holdersOk) (hw : s.keyWaits p k = false) : OnlyAt p s (s.evalKey p k) := by
  have hloop (hk : KeyKind.isLoopKey k.kind = true) : OnlyAt p s (match loopOf k.args.loop with
      | some l => if (s.pos p).state.staffed then s.loopKey p k.kind k.args l else s.errorTone p
      | none => s.errorTone p) := by
    split
    · next l hl =>
      split
      · exact onlyAt_loopKey hs (loopSettled_of_not_waits hw hk hl) _ _
      · exact (OnlyAt.refl p s).errorTone
    · exact (OnlyAt.refl p s).errorTone
  obtain ⟨kind, a⟩ := k
  unfold State.evalKey
  split
  · cases kind with
    | opening => exact onlyAt_keyOpen s p
    | closing => exact onlyAt_keyClose s p
    | withdraw => exact onlyAt_keyWithdraw s p
    | resume => exact onlyAt_keyResume s p
    | review => exact onlyAt_keyReview s p
    | answerNext => exact onlyAt_keyAnswerNext s p
    | pickup => exact onlyAt_keyPickup s p a
    | _ => exact hloop rfl
  · exact (OnlyAt.refl p s).errorTone

end

/-! ### Evaluated buffers -/

/-- Nothing of a position's buffer is to be evaluated: it is empty, or its head waits. -/
def State.drained (s : State) (p : Pos) : Prop :=
  (s.pos p).keys = [] ∨ ∃ k rest, (s.pos p).keys = k :: rest ∧ s.waitsAt p k

theorem State.drained.drainKeys {s : State} {p : Pos} (h : s.drained p) : s.drainKeys p = s := by
  obtain h | ⟨k, rest, hk, hw⟩ := h
  · exact drainKeys_empty h
  · exact drainKeys_waits hk ((keyWaits_iff s p k).2 hw)

theorem foldl_drainKeys_drained {s : State} (ps : List Pos) (h : ∀ p ∈ ps, s.drained p) : ps.foldl State.drainKeys s = s := by
  induction ps with
  | nil => rfl
  | cons p ps ih =>
    rw [List.foldl_cons, (h p List.mem_cons_self).drainKeys]
    exact ih fun q hq => h q (List.mem_cons_of_mem p hq)

/-- A buffer stays evaluated where its loops and its keys stay and no order leaves the order list. -/
theorem State.drained.mono {s t : State} {q : Pos} (h : s.drained q) (hkeys : (t.pos q).keys = (s.pos q).keys)
    (hloop : ∀ l i, (s.loop q l).slot? = some i → (t.loop q l).slot? = some i)
    (hflight : ∀ i, s.inFlight i = true → t.inFlight i = true) : t.drained q := by
  obtain h | ⟨k, rest, hk, hkind, l, i, hl, hi, he⟩ := h
  · exact .inl (hkeys.trans h)
  · exact .inr ⟨k, rest, hkeys.trans hk, hkind, l, i, hl, hloop l i hi, (inFlight_iff t i).1 (hflight i ((inFlight_iff s i).2 he))⟩

theorem OnlyAt.drained {p q : Pos} {s t : State} (h : OnlyAt p s t) (hq : q ≠ p) (hd : s.drained q) : t.drained q := by
  have hpos := h.1 q hq
  refine hd.mono (by rw [hpos]) (fun l i hi => ?_) fun i hi => h.inFlight hi
  have hloop : t.loop q l = s.loop q l := by
    unfold State.loop
    rw [hpos]
  rw [hloop]
  exact hi

theorem onlyAt_drain {s : State} (hs : s.holdersOk) (p : Pos) (n : Nat) : OnlyAt p s (s.drain p n) := by
  induction n generalizing s with
  | zero => exact .refl p s
  | succ n ih =>
    unfold State.drain
    split
    · exact .refl p s
    · next k rest _ =>
      split
      · exact .refl p s
      · next hw =>
        have hset : (s.updPos p fun q => { q with keys := rest }).holdersOk := (sameHold_updPos rfl).holders hs
        have hnow := (keyWaits_keys s p rest k).trans (Bool.eq_false_iff.2 hw)
        exact (((OnlyAt.refl p s).updPos _).trans (onlyAt_evalKey hset hnow)).trans (ih (holders_evalKey hset hnow))

/-- With as much fuel as keys the buffer is evaluated. -/
theorem drained_drain (p : Pos) (n : Nat) (s : State) (hn : (s.pos p).keys.length ≤ n) : (s.drain p n).drained p := by
  induction n generalizing s with
  | zero => exact .inl (List.length_eq_zero_iff.1 (Nat.le_zero.1 hn))
  | succ n ih =>
    unfold State.drain
    split
    · next hk => exact .inl hk
    · next k rest hk =>
      split
      · next hw => exact .inr ⟨k, rest, hk, (keyWaits_iff s p k).1 hw⟩
      · refine ih _ ?_
        rw [keys_evalKey, pos_updPos_self]
        rw [hk, List.length_cons] at hn
        exact Nat.le_of_succ_le_succ hn

theorem drained_foldl (ps : List Pos) {s : State} (hs : s.holdersOk) :
    (∀ q, s.drained q → (ps.foldl State.drainKeys s).drained q) ∧ ∀ q ∈ ps, (ps.foldl State.drainKeys s).drained q := by
  induction ps generalizing s with
  | nil => exact ⟨fun _ h => h, nofun⟩
  | cons p ps ih =>
    obtain ⟨hkeep, hdone⟩ := ih (s := s.drainKeys p) (holders_drain hs p _)
    refine ⟨fun q hq => hkeep q ?_, fun q hq => ?_⟩
    · by_cases hqp : q = p
      · subst hqp
        rw [hq.drainKeys]
        exact hq
      · exact (onlyAt_drain hs p _).drained hqp hq
    · obtain rfl | hq := List.mem_cons.1 hq
      · exact hkeep q (drained_drain q _ s le_rfl)
      · exact hdone q hq

theorem drained_drainAll {s : State} (hs : s.holdersOk) (q : Pos) : s.drainAll.drained q := (drained_foldl allPos hs).2 q (mem_allPos q)

/-- Offers, sending and pictures leave a wait as it is. -/
theorem drained_finishOffers {s : State} {q : Pos} (h : s.drained q) : s.finishOffers.drained q := by
  have hoffers := onlyOffers_finishOffers s
  refine h.mono (hoffers.position q).1.2.1 (fun l i hi => ?_) fun i hi => ?_
  · obtain hl | ⟨hl, -⟩ := hoffers.loop q l
    · rw [hl]
      exact hi
    · rw [hl] at hi
      cases hi
  · have hslots := congrArg (List.map Prod.fst) hoffers.orders
    rw [List.map_map, List.map_map] at hslots
    rw [inFlight_of_slots hslots]
    exact hi

/-! ### The first key to evaluate -/

theorem allPos_split (p : Pos) : ∃ before after, allPos = before ++ p :: after ∧ ∀ q ∈ before, q < p :=
  ⟨allPos.filter (· < p), allPos.filter (p < ·), by revert p; decide, fun q hq => by simpa using (List.mem_filter.1 hq).2⟩

/-- Where a position's head does not wait, it is evaluated with its effect and leaves the buffer, which is evaluated on. -/
theorem drainKeys_cons {s : State} {p : Pos} {k : KeyMsg} {rest : List KeyMsg} (hk : (s.pos p).keys = k :: rest)
    (hw : s.keyWaits p k = false) {w : State} (h : (s.updPos p fun q => { q with keys := rest }).evalKey p k = w) :
    s.drainKeys p = w.drainKeys p := by
  have hrest : (w.pos p).keys = rest := by rw [← h, keys_evalKey, pos_updPos_self]
  rw [State.drainKeys, State.drainKeys, hk, hrest, List.length_cons]
  simp only [State.drain, hk, hw, Bool.false_eq_true, if_false, h]

/-- The first position with a key to evaluate comes first. -/
theorem drainAll_cons {s w : State} {p : Pos} (hbefore : ∀ q < p, s.drained q) (hbefore' : ∀ q < p, w.drained q)
    (h : s.drainKeys p = w.drainKeys p) : s.drainAll = w.drainAll := by
  obtain ⟨before, after, hall, hlt⟩ := allPos_split p
  have hs := foldl_drainKeys_drained before fun q hq => hbefore q (hlt q hq)
  have hw := foldl_drainKeys_drained before fun q hq => hbefore' q (hlt q hq)
  rw [State.drainAll, State.drainAll, hall, List.foldl_append, List.foldl_append, hs, hw, List.foldl_cons, List.foldl_cons, h]

end Sys2Proof.Machine
end

section
/-! PROOFS. The end of an event is complete (R50, R74, R127, R132, R156). -/

namespace Sys2Proof.Machine

/-! ### Sending and pictures -/

/-- Offers and sending leave the state of every position. -/
theorem sent_state (s : State) (p : Pos) : (s.makeOffers.sendOrders.pos p).state = (s.pos p).state := by
  have hfinish := ((onlyOffers_finishOffers s).position p).1.1
  have hshown : (s.finishOffers.pos p).state = (s.makeOffers.sendOrders.pos p).state := by
    show ((State.refresh s.makeOffers.sendOrders).pos p).state = _
    rw [(refresh_same _).2 p]
  exact hshown.symm.trans hfinish

theorem SentMore.pos {s t : State} (h : SentMore s t) (p : Pos) : t.pos p = s.pos p := by
  unfold State.pos
  rw [h.1]

/-- The transmit queue an event ends with is in step with what the sending left. -/
theorem txq_finishOffers {s : State} {p : Pos} (h : (s.pos p).state ≠ .absent) :
    (s.finishOffers.pos p).txq = s.makeOffers.sendOrders.txqInStep p := by
  have hstate := sent_state s p
  show ((State.refresh s.makeOffers.sendOrders).pos p).txq = _
  generalize s.makeOffers.sendOrders = t at hstate
  rw [pos_refresh, if_neg (hstate ▸ h)]

theorem itemDiffers_finishOffers (s : State) (p : Pos) (it : Item) :
    s.finishOffers.itemDiffers p it = s.makeOffers.sendOrders.itemDiffers p it := by
  show (State.refresh s.makeOffers.sendOrders).itemDiffers p it = _
  exact (refresh_same _).itemDiffers p it

theorem once_finishOffers {s : State} {p : Pos} {it : Item} (hp : (s.pos p).state ≠ .absent)
    (h : ((s.pos p).txq.filter fun e => e.isItem it).length ≤ 1) : ((s.finishOffers.pos p).txq.filter fun e => e.isItem it).length ≤ 1 := by
  rw [txq_finishOffers hp]
  refine once_txqInStep ?_
  rw [(sendOrders_more s.makeOffers).pos p, filter_isItem_itemsOf, itemsOf_makeOffers, ← filter_isItem_itemsOf]
  exact h

/-! ### Keys -/

theorem setKeys_self {s : State} {p : Pos} {ks : List KeyMsg} (h : (s.pos p).keys = ks) :
    (s.updPos p fun q => { q with keys := ks }) = s :=
  updPos_self s p _ (by rw [← h])

/-- A key that does not wait, taken as its row takes it at an empty buffer. -/
theorem exec_alone {s : State} {p : Pos} {k : KeyMsg} (hw : ¬ s.waitsAt p k) (hf : (s.pos p).state ≠ .faulted)
    (ha : (s.pos p).state ≠ .absent) {t : State} (ht : (s.updPos p fun q => { q with keys := [] }) = t) :
    exec (keyCommand k.kind p k.args) t = .next (t.evalKey p k).finishOffers := by
  have hpos : t.pos p = { s.pos p with keys := [] } := by rw [← ht, pos_updPos_self]
  have hnow : t.keyWaits p k = false := by
    rw [← ht, keyWaits_keys]
    exact Bool.eq_false_iff.2 fun hc => hw ((keyWaits_iff s p k).1 hc)
  rw [exec_keyCommand, press_now (by rw [hpos]; exact ha) (by rw [hpos]; exact hf) (by rw [hpos]) hnow]

/-- The row's effect with the rest of the buffer in its place. -/
theorem evalKey_rest (s : State) (p : Pos) (k : KeyMsg) (rest : List KeyMsg) :
    (((s.updPos p fun q => { q with keys := [] }).evalKey p k).updPos p fun q => { q with keys := rest }) =
      (s.updPos p fun q => { q with keys := rest }).evalKey p k := by
  rw [← evalKey_setKeys, updPos_updPos]

theorem keys_evaluated (s : State) (p : Pos) (k : KeyMsg) (q : Pos) :
    (((s.updPos p fun q => { q with keys := [] }).evalKey p k).pos q).keys = if q = p then [] else (s.pos q).keys := by
  rw [keys_evalKey, pos_updPos]
  by_cases hq : q = p
  · subst hq
    rw [if_pos rfl, if_pos rfl]
  · rw [if_neg hq, if_neg (Ne.symm hq)]

/-- A lone key is evaluated as its row does it. -/
theorem drainAll_lone {s : State} {p : Pos} {k : KeyMsg} (hk : (s.pos p).keys = [k]) (hw : ¬ s.waitsAt p k)
    (hothers : ∀ q, q ≠ p → (s.pos q).keys = []) {t : State} (ht : (s.updPos p fun q => { q with keys := [] }) = t) :
    s.drainAll = t.evalKey p k := by
  have hempty (q : Pos) : ((t.evalKey p k).pos q).keys = [] := by
    rw [← ht, keys_evaluated]
    split
    · rfl
    · next hq => exact hothers q hq
  rw [drainAll_cons (fun q hq => .inl (hothers q (ne_of_lt hq))) (fun q _ => .inl (hempty q))
    (drainKeys_cons hk (Bool.eq_false_iff.2 fun hc => hw ((keyWaits_iff s p k).1 hc)) (congrArg (fun u => State.evalKey u p k) ht))]
  exact drainAll_empty hempty

/-- Of several keys the head of the first position that has one to evaluate comes first (R74; log 22). -/
theorem drainAll_first {s : State} {p : Pos} {k : KeyMsg} {rest : List KeyMsg} (hs : s.holdersOk) (hk : (s.pos p).keys = k :: rest)
    (hw : ¬ s.waitsAt p k) (hbefore : ∀ q < p, s.drained q) :
    s.drainAll = ((s.updPos p fun q => { q with keys := rest }).evalKey p k).drainAll := by
  have hnow : s.keyWaits p k = false := Bool.eq_false_iff.2 fun hc => hw ((keyWaits_iff s p k).1 hc)
  have honly : OnlyAt p s ((s.updPos p fun q => { q with keys := rest }).evalKey p k) :=
    ((OnlyAt.refl p s).updPos _).trans (onlyAt_evalKey ((sameHold_updPos rfl).holders hs) ((keyWaits_keys s p rest k).trans hnow))
  exact drainAll_cons hbefore (fun q hq => honly.drained (ne_of_lt hq) (hbefore q hq)) (drainKeys_cons hk hnow rfl)

end Sys2Proof.Machine

namespace Sys2Proof
open Sys2Proof.Machine

/-- Settles O10: offers and sending go on until none is possible, the transmit queues are brought in step from the state they leave,
and the buffers are evaluated position by position; a key works at its own position alone and ends no wait. -/
theorem endOfEventIsComplete : Obligations.EndOfEventIsComplete := by
  refine ⟨fun s => ⟨nextOffer_finishOffers s, oldestWaiting_finishOffers, fun p it hp hd => ?_⟩, fun s p it hp => ⟨fun hm => ?_, fun h => ?_⟩,
    fun s => ⟨(refresh_same s).1, pos_refresh s⟩, fun s _ _ hs p => ?_, fun s h => ?_, fun s p k hk hw hf ha hothers => ?_,
    fun s p k rest _ _ hs hk hw hbefore => ⟨fun hf ha => exec_alone hw hf ha rfl, keys_evaluated s p k, ?_⟩⟩
  · rw [itemDiffers_finishOffers] at hd
    rw [txq_finishOffers hp]
    exact mem_txqInStep_of_differs hd
  · rw [txq_finishOffers hp] at hm
    rw [itemDiffers_finishOffers]
    exact differs_of_mem_txqInStep hm
  · exact once_finishOffers hp (h it)
  · exact drained_finishOffers (drained_drainAll hs p)
  · rw [State.finishAll, State.drainAll, foldl_drainKeys_drained allPos fun p _ => h p]
  · rw [exec_alone hw hf ha rfl, State.finishAll, drainAll_lone hk hw hothers rfl]
  · rw [State.finishAll, State.finishAll, evalKey_rest, drainAll_first hs hk hw hbefore]

end Sys2Proof
end

section
/-! PROOFS. What the rescue of one loop of a failed position does (R86 to R88). -/

namespace Sys2Proof.Machine

/-! ### The record after its rescue -/

/-- The record of a call as it stands in the rescue set (R87, R88). -/
def Record.inRescue (r : Record) (m : Rescue) : Record := { r with loc := .rescue m, timer := none, held := none }

/-- The record of a loop's call after the rescue of the loop (R86, R88). -/
def State.rescuedRecord (s : State) (p : Pos) (l : LoopNo) (i : Slot) (r : Record) : Record :=
  match s.loop p l with
  | .idle => r
  | .alerting _ => { r with mark := none, timer := s.agingTimer r, held := none }
  | .connecting _ =>
    if s.claimGranted i then { r with claim := none }.inRescue ⟨p, .split, none, false⟩ else { r with claim := none }
  | .talk _ => r.inRescue ⟨p, .connected, if s.inFlight i then s.reservation i else none, false⟩
  | .held _ | .recalling _ =>
    if s.inFlight i then r.inRescue ⟨p, .split, none, false⟩ else s.recalled r .positionLost none
  | .extend _ =>
    if s.inFlight i then r.inRescue ⟨p, .split, none, false⟩
    else if r.step = 3 ∨ r.step = 5 then { r with step := 6 }.inRescue ⟨p, .split, none, false⟩
    else s.recalled r .positionLost none
  | .locked _ =>
    r.inRescue ⟨p, .connected, none, if s.inFlight i then (s.entry? i).any fun e => e.order == .release else true⟩

/-- An orbit that a rescue empties: it holds the call of a GRANTED claim of the loop (R88). -/
def State.claimFrees (s : State) (p : Pos) (l : LoopNo) (o : OrbitNo) : Prop :=
  ∃ i, s.orbit o = .occupied i ∧ s.loop p l = .connecting i ∧ s.claimGranted i = true

/-- The rescue of a loop brings a tenant to its threshold at a position (R46). -/
def State.joinReaches (s t : State) (p : Pos) (l : LoopNo) (q : Pos) : Prop :=
  ∃ i r, s.rescuedToQueue p l = some i ∧ s.slot i = .live r ∧ t.reachesThreshold (s.pos q) r.tenant

/-- What the rescue of one loop of a FAULTED position does. -/
structure LoopRescued (s t : State) (p : Pos) (l : LoopNo) : Prop where
  frame : t = { s with slots := t.slots, queue := t.queue, orders := t.orders, orbits := t.orbits, positions := t.positions }
  slot : ∀ i, (s.loop p l).slot? ≠ some i → t.slot i = s.slot i
  call : ∀ i r, (s.loop p l).slot? = some i → s.slot i = .live r → t.slot i = .live (s.rescuedRecord p l i r)
  queue : t.queue = s.rescueQueue p [l]
  orders : t.orders = s.orders ++ s.rescueEntries s p l
  orbit : ∀ o, (s.claimFrees p l o → t.orbit o = .empty) ∧ (¬ s.claimFrees p l o → t.orbit o = s.orbit o)
  loop : ∀ m, t.loop p m = if m = l then .idle else s.loop p m
  own : (s.pos p).sameSettings (t.pos p) ∧ (t.pos p).txq = (s.pos p).txq
  others : ∀ q, q ≠ p →
    (s.joinReaches t p l q → (∀ a ∈ (s.pos q).alerts, a.kind ≠ .queueThreshold) → s.thresholdRaised t q) ∧
    (¬ s.joinReaches t p l q ∨ (∃ a ∈ (s.pos q).alerts, a.kind = .queueThreshold) → t.pos q = s.pos q)

/-! ### The loop is IDLE -/

/-- A loop of a position is made IDLE, and its alert list may be changed. -/
structure Idled (s t : State) (p : Pos) (l : LoopNo) : Prop where
  frame : t = { s with positions := t.positions }
  others : s.sameOthers t p
  loop : ∀ m, t.loop p m = if m = l then .idle else s.loop p m
  own : (s.pos p).sameSettings (t.pos p) ∧ (t.pos p).txq = (s.pos p).txq

theorem idled_loopIdle (s : State) (p : Pos) (l : LoopNo) : Idled s (s.loopIdle p l) p l := by
  have hpos : (s.loopIdle p l).pos p = ((s.pos p).setLoop l .idle).dropLoopAlert l := pos_updPos_self s p _
  refine ⟨rfl, fun q hq => pos_updPos_ne _ _ _ _ (Ne.symm hq), fun m => ?_, ?_⟩
  · rw [loop_after_loopIdle]
    by_cases hm : m = l
    · rw [if_pos (by rw [hm]), if_pos hm]
    · rw [if_neg fun hc => hm (congrArg Prod.snd hc), if_neg hm]
  · rw [hpos]
    exact ⟨⟨rfl, rfl, rfl, rfl, rfl, rfl, rfl, rfl, rfl, rfl⟩, rfl⟩

theorem Idled.trans {s t u : State} {p : Pos} {l : LoopNo} (h : Idled s t p l) (h' : Idled t u p l) : Idled s u p l where
  frame := by rw [h'.frame, h.frame]
  others q hq := (h'.others q hq).trans (h.others q hq)
  loop m := by
    rw [h'.loop, h.loop]
    split <;> rfl
  own := ⟨h.own.1.trans h'.own.1, h'.own.2.trans h.own.2⟩

/-! ### What a loop's rescue does to the queue -/

theorem rescueQueue_singleton (s : State) (p : Pos) (l : LoopNo) : s.rescueQueue p [l] =
    (s.queue.filter fun i => !(s.loop p l == .connecting i && s.claimGranted i)) ++ (s.rescuedToQueue p l).toList := by
  refine congrArg₂ (· ++ ·) ?_ ?_
  · simp only [List.any_cons, List.any_nil, Bool.or_false]
  · cases h : s.rescuedToQueue p l with
    | none => rw [List.filterMap_cons_none h]; rfl
    | some i => rw [List.filterMap_cons_some h]; rfl

/-- A loop with no GRANTED claim takes no call out of the queue. -/
theorem rescueQueue_unclaimed {s : State} {p : Pos} {l : LoopNo} (h : ∀ i, s.loop p l = .connecting i → s.claimGranted i = false) :
    s.rescueQueue p [l] = s.queue ++ (s.rescuedToQueue p l).toList := by
  rw [rescueQueue_singleton]
  refine congrArg (· ++ _) (List.filter_eq_self.2 fun i _ => ?_)
  rw [Bool.not_eq_true', Bool.and_eq_false_iff]
  by_cases hi : s.loop p l = .connecting i
  · exact .inr (h i hi)
  · exact .inl (beq_eq_false_iff_ne.2 hi)

theorem not_claimFrees {s : State} {p : Pos} {l : LoopNo} (h : ∀ i, s.loop p l = .connecting i → s.claimGranted i = false) (o : OrbitNo) :
    ¬ s.claimFrees p l o := fun ⟨i, _, hx, hg⟩ => by
  rw [h i hx] at hg
  cases hg

/-! ### A rescue that sends no call to the queue -/

section
variable {s y t : State} {p : Pos} {l : LoopNo} {i : Slot} {r : Record}

theorem LoopRescued.of_put (hy : Idled s y p l) (hi : (s.loop p l).slot? = some i) (hr : s.slot i = .live r)
    (hto : s.rescuedToQueue p l = none) {queue : List Slot} {orders : List Entry} {orbits : Vector Orbit 20}
    (hqueue : queue = s.rescueQueue p [l]) (horders : orders = s.orders ++ s.rescueEntries s p l)
    (horbit : ∀ o : OrbitNo, (s.claimFrees p l o → orbits[o] = .empty) ∧ (¬ s.claimFrees p l o → orbits[o] = s.orbit o))
    (ht : t = { y with
      slots := s.slots.set i (.live (s.rescuedRecord p l i r)), queue := queue, orders := orders, orbits := orbits }) :
    LoopRescued s t p l := by
  obtain ⟨hframe, hothers, hloop, hown⟩ := hy
  subst ht
  refine ⟨?_, fun j hj => ?_, fun j r' hj hr' => ?_, hqueue, horders, horbit, hloop, hown, fun q hq => ⟨?_, fun _ => hothers q hq⟩⟩
  · rw [hframe]
  · exact slot_setSlot_ne s i j _ fun (hc : i = j) => hj (hc ▸ hi)
  · rw [hi] at hj
    cases hj
    rw [hr] at hr'
    cases hr'
    exact slot_setSlot_self s i _
  · rintro ⟨j, -, hj, -⟩
    rw [hto] at hj
    cases hj

/-- A rescue that leaves queue list and orbits. -/
theorem LoopRescued.of_kept (hy : Idled s y p l) (hi : (s.loop p l).slot? = some i) (hr : s.slot i = .live r)
    (hto : s.rescuedToQueue p l = none) (hclaim : ∀ j, s.loop p l = .connecting j → s.claimGranted j = false)
    (ht : t = { y with slots := s.slots.set i (.live (s.rescuedRecord p l i r)), orders := s.orders ++ s.rescueEntries s p l }) :
    LoopRescued s t p l := by
  have hqueue : y.queue = s.rescueQueue p [l] := by
    rw [rescueQueue_unclaimed hclaim, hto, hy.frame]
    exact (List.append_nil _).symm
  refine .of_put hy hi hr hto hqueue rfl (fun o => ⟨fun hc => absurd hc (not_claimFrees hclaim o), fun _ => ?_⟩) ht
  show y.orbit o = s.orbit o
  rw [hy.frame]
  rfl

end

end Sys2Proof.Machine
end

section
/-! PROOFS. The rescue of one loop, by the loop's state (R86 to R88). -/

namespace Sys2Proof.Machine

section
variable {s y t : State} {p : Pos} {l : LoopNo} {i : Slot} {r : Record}

/-! ### The alternatives of the statements -/

theorem exists_order_iff (s : State) (i : Slot) : (∃ e ∈ s.orders, e.slot = i) ↔ s.inFlight i = true := (inFlight_iff s i).symm

/-- A record in the rescue set, with the claim that stays. -/
theorem disarm_eq_inRescue {m : Rescue} {kept : Option Claim} (hm : r.mark = none) :
    Record.disarm { r with loc := .rescue m, mark := none, claim := kept } = ({ r with claim := kept } : Record).inRescue m := by
  cases r
  cases hm
  rfl

/-! ### A call that the rescue queues -/

/-- The loop's call joins the queue as RECALL(POSITION_LOST). -/
theorem LoopRescued.of_recall (hy : Idled s y p l) (hi : (s.loop p l).slot? = some i) (hr : s.settled i r)
    (hfailed : (s.pos p).state = .faulted) (hto : s.rescuedToQueue p l = some i)
    (hrec : s.rescuedRecord p l i r = s.recalled r .positionLost none) (hentries : s.rescueEntries s p l = s.nightEntries i r)
    (hclaim : ∀ j, s.loop p l = .connecting j → s.claimGranted j = false) (ht : y.recall i .positionLost none = t) :
    LoopRescued s t p l := by
  obtain ⟨hframe, hothers, hloop, hset, htxq⟩ := hy
  have hsettled : y.settled i r := by rw [hframe]; exact hr
  obtain ⟨hshown, hrecall⟩ := recall_spec hsettled .positionLost none
  rw [ht] at hshown hrecall
  have hown : t.pos p = y.pos p := (hshown p).2 (.inl fun hc => by
    have hstate : (y.pos p).state = .faulted := hset.1.trans hfailed
    obtain ⟨-, -, -, h, -⟩ := hc
    rw [hstate] at h
    exact h.elim nofun nofun)
  have hslots : t.slots = s.slots.set i (.live (s.recalled r .positionLost none)) := by
    rw [hrecall, hframe]
    rfl
  have hreach (q : Pos) : s.joinReaches t p l q ↔ t.reachesThreshold (s.pos q) r.tenant := by
    refine ⟨fun ⟨j, r', hj, hr', h⟩ => ?_, fun h => ⟨i, r, hto, hr.1, h⟩⟩
    rw [hto] at hj
    cases hj
    rw [hr.1] at hr'
    cases hr'
    exact h
  refine ⟨?_, fun j hj => ?_, fun j r' hj hr' => ?_, ?_, ?_, fun o => ⟨fun hc => absurd hc (not_claimFrees hclaim o), fun _ => ?_⟩, fun m => ?_,
    ?_, fun q hq => ?_⟩
  · generalize t.positions = ps at hrecall
    rw [hrecall, hframe]
  · rw [slot_of_setSlot hslots, if_neg fun hc : i = j => hj (hc ▸ hi)]
  · rw [hi] at hj
    cases hj
    rw [hr.1] at hr'
    cases hr'
    rw [slot_of_setSlot hslots, if_pos rfl, hrec]
  · rw [rescueQueue_unclaimed hclaim, hto, hrecall, hframe]
    rfl
  · rw [hentries, hrecall, hframe]
    rfl
  · rw [hrecall, hframe]
    rfl
  · rw [← hloop m]
    unfold State.loop
    rw [hown]
  · rw [hown]
    exact ⟨hset, htxq⟩
  · rw [hreach]
    have := hshown q
    rw [State.thresholdRaised, hothers q hq] at this
    exact this

/-! ### By the loop's state -/

theorem loopRescued_idle (hx : s.loop p l = .idle) : LoopRescued s s p l := by
  have hclaim : ∀ j, s.loop p l = .connecting j → s.claimGranted j = false := fun j hj => by rw [hx] at hj; cases hj
  have hto : s.rescuedToQueue p l = none := by rw [State.rescuedToQueue, hx]
  refine ⟨rfl, fun _ _ => rfl, fun j r' hj => ?_, ?_, ?_, fun o => ⟨fun hc => absurd hc (not_claimFrees hclaim o), fun _ => rfl⟩, fun m => ?_,
    ⟨.refl _, rfl⟩, fun q _ => ⟨fun ⟨j, r', hj, _⟩ => ?_, fun _ => rfl⟩⟩
  · rw [hx] at hj
    cases hj
  · rw [rescueQueue_unclaimed hclaim, hto]
    exact (List.append_nil _).symm
  · rw [State.rescueEntries, hx]
    exact (List.append_nil _).symm
  · split
    · next hm => rw [hm, hx]
    · rfl
  · rw [hto] at hj
    cases hj

theorem loopRescued_alerting (hx : s.loop p l = .alerting i) (hr : s.slot i = .live r) :
    LoopRescued s (((s.loopIdle p l).updRec i fun r => { r with mark := none }).armAging i) p l := by
  have hidle : (s.loopIdle p l).slot i = .live r := hr
  have hentries : s.rescueEntries s p l = [] := by
    simp only [State.rescueEntries, hx, LoopState.slot?, hr]
    exact ite_self _
  refine .of_kept (idled_loopIdle s p l) (by rw [hx]; rfl) hr (by rw [State.rescuedToQueue, hx]) (fun j hj => by rw [hx] at hj; cases hj) ?_
  rw [updRec_slots_of_live hidle, armAging_timer (slot_setSlot_self _ _ _), setSlot_setSlot, hentries, State.rescuedRecord, hx,
    List.append_nil]
  rfl

/-- A WAITING claim of the loop goes (R86). -/
theorem loopRescued_waiting {c : Claim} (hx : s.loop p l = .connecting i) (hr : s.slot i = .live r) (hc : r.claim = some c)
    (hg : c.granted = false) : LoopRescued s ((s.loopIdle p l).updRec i fun r => { r with claim := none }) p l := by
  have hidle : (s.loopIdle p l).slot i = .live r := hr
  have hclaim : s.claimGranted i = false := by rw [State.claimGranted, hr]; simp only [hc, Option.any_some, hg]
  have hentries : s.rescueEntries s p l = [] := by
    simp only [State.rescueEntries, hx, LoopState.slot?, hr]
    exact ite_self _
  refine .of_kept (idled_loopIdle s p l) (by rw [hx]; rfl) hr (by rw [State.rescuedToQueue, hx]) (fun j hj => ?_) ?_
  · rw [hx] at hj
    cases hj
    exact hclaim
  · rw [updRec_slots_of_live hidle, hentries, State.rescuedRecord, hx, List.append_nil]
    simp only [hclaim, Bool.false_eq_true, if_false]
    rfl

/-- The call of a GRANTED claim leaves its queue place or orbit for the rescue set (R88). -/
theorem loopRescued_granted {c : Claim} (hs : s.holdersOk) (hq : s.queueOk) (hx : s.loop p l = .connecting i) (hr : s.slot i = .live r)
    (hc : r.claim = some c) (hg : c.granted = true) :
    LoopRescued s ((s.loopIdle p l).rescueInFlight p (.connecting i) i) p l := by
  obtain ⟨hfit, -, -⟩ := fitted_of_holders hs hr
  have hplace := hfit.fits.claimed c hc hg
  have hmark := hfit.fits.mark_none_of_claim hc
  have hclaim : s.claimGranted i = true := by rw [State.claimGranted, hr]; simp only [hc, Option.any_some, hg]
  have hfree (u : OrbitNo) : s.orbit u ≠ .reserved i := fun hu => by
    obtain ⟨hnq, hp, -⟩ := hfit.fits.not_queued_of_reserved hu
    obtain hl | ⟨o, hl⟩ := hplace
    · exact hnq hl
    · exact hp o hl
  have hres : (s.loopIdle p l).reservation i = none := reservation_none hfree
  have hidle : (s.loopIdle p l).slot i = .live r := hr
  have hleft : ((s.loopIdle p l).leaveHolder i).slot i = .live r := by rw [leaveHolder_slot]; exact hidle
  have hinto : (s.loopIdle p l).rescueInFlight p (.connecting i) i =
      ((s.loopIdle p l).leaveHolder i).setSlot i (.live (s.rescuedRecord p l i r)) := by
    unfold State.rescueInFlight State.enterRescue
    simp only
    rw [updRec_slots_of_live hleft, hres, hc, Option.bind_some, hg, disarm_eq_inRescue hmark, State.rescuedRecord, hx]
    simp only [hclaim]
    rfl
  have hqueue : s.rescueQueue p [l] = s.queue.filter fun j => j != i := by
    rw [rescueQueue_singleton, State.rescuedToQueue, hx]
    refine (List.append_nil _).trans (List.filter_congr fun j _ => ?_)
    by_cases hj : j = i
    · subst hj
      rw [hclaim, bne_self_eq_false, beq_self_eq_true]
      rfl
    · rw [bne_iff_ne.2 hj, beq_eq_false_iff_ne.2 fun h => hj (by cases h; rfl)]
      rfl
  have hentries : s.orders = s.orders ++ s.rescueEntries s p l := by
    simp only [State.rescueEntries, hx, LoopState.slot?, hr, ite_self, List.append_nil]
  have hfrees (o : OrbitNo) : s.claimFrees p l o ↔ s.orbit o = .occupied i := by
    refine ⟨fun ⟨j, ho, hj, _⟩ => ?_, fun ho => ⟨i, ho, hx, hclaim⟩⟩
    rw [hx] at hj
    cases hj
    exact ho
  have hto : s.rescuedToQueue p l = none := by rw [State.rescuedToQueue, hx]
  obtain hl | ⟨o, hl⟩ := hplace
  · have hleave : (s.loopIdle p l).leaveHolder i = { s.loopIdle p l with queue := s.queue.filter fun j => j != i } :=
      leaveHolder_queued ((record?_eq_some (s.loopIdle p l) i).2 hidle) hl
    refine .of_put (idled_loopIdle s p l) (by rw [hx]; rfl) hr hto hqueue.symm hentries (orbits := s.orbits) (fun o => ⟨fun ho => ?_, fun _ => rfl⟩)
      (by rw [hinto, hleave]; rfl)
    have := (hfit.fits.parked o).1 ((hfrees o).1 ho)
    rw [hl] at this
    cases this
  · have hleave : (s.loopIdle p l).leaveHolder i = (s.loopIdle p l).freeOrbits i :=
      leaveHolder_parked ((record?_eq_some (s.loopIdle p l) i).2 hidle) hl
    have hnot : i ∉ s.queue := fun hm => by
      obtain ⟨r', hr', hl'⟩ := (hq.2 i).1 hm
      rw [hr] at hr'
      cases hr'
      rw [hl] at hl'
      cases hl'
    have hsame : s.queue = s.rescueQueue p [l] := by
      rw [hqueue]
      exact (List.filter_eq_self.2 fun j hj => bne_iff_ne.2 fun h : j = i => hnot (h ▸ hj)).symm
    refine .of_put (idled_loopIdle s p l) (by rw [hx]; rfl) hr hto hsame hentries (orbits := (s.freeOrbits i).orbits) (fun u => ?_)
      (by rw [hinto, hleave]; rfl)
    have horbit : (s.freeOrbits i).orbits[u] = if (s.orbit u).names i then .empty else s.orbit u := orbit_freeOrbits s i u
    rw [hfrees, horbit]
    refine ⟨fun hu => if_pos ((names_iff _ _).2 (.inr hu)), fun hu => if_neg fun hn => ?_⟩
    exact ((names_iff _ _).1 hn).elim (hfree u) hu

end

end Sys2Proof.Machine
end

section
/-! PROOFS. The rescue of one loop that holds a call (R86 to R90). -/

namespace Sys2Proof.Machine

section
variable {s t : State} {p : Pos} {l : LoopNo} {i : Slot} {r : Record}

/-- The loop's call leaves it; the loop was made IDLE before. -/
theorem idled_leaveHolder (hr : s.slot i = .live r) (hloc : r.loc = .loop p l) : Idled s ((s.loopIdle p l).leaveHolder i) p l := by
  have hleft : (s.loopIdle p l).leaveHolder i = (s.loopIdle p l).loopIdle p l :=
    leaveHolder_loop ((record?_eq_some (s.loopIdle p l) i).2 hr) hloc
  rw [hleft]
  exact (idled_loopIdle s p l).trans (idled_loopIdle _ p l)

/-- The loop's call enters the rescue set: its loop is IDLE, and a GRANTED claim, which a call on a loop has not, would go. -/
theorem enterRescue_of_loop (hs : s.holdersOk) (hr : s.slot i = .live r) (hloc : r.loc = .loop p l) (m : Rescue) :
    (s.loopIdle p l).enterRescue i m = ((s.loopIdle p l).leaveHolder i).setSlot i (.live (r.inRescue m)) := by
  obtain ⟨hfit, -, -⟩ := fitted_of_holders hs hr
  have hmark : r.mark = none := hfit.fits.mark_none (by rw [hloc]; exact nofun)
  have hkept : (r.claim.bind fun c => if c.granted then none else some c) = r.claim := by
    cases hc : r.claim with
    | none => rfl
    | some c =>
      rw [Option.bind_some, if_neg fun hg => ?_]
      obtain hq | ⟨o, hq⟩ := hfit.fits.claimed c hc hg <;> rw [hloc] at hq <;> cases hq
  have hleft : ((s.loopIdle p l).leaveHolder i).slot i = .live r := by rw [leaveHolder_slot]; exact hr
  unfold State.enterRescue
  rw [updRec_slots_of_live hleft, hkept, disarm_eq_inRescue hmark]

/-! ### With an order in flight -/

theorem rescueEntries_inFlight (hi : (s.loop p l).slot? = some i) (hr : s.slot i = .live r) (hf : s.inFlight i = true) :
    s.rescueEntries s p l = [] := by
  simp only [State.rescueEntries, hi, hr]
  exact if_pos ((exists_order_iff s i).2 hf)

theorem rescuedToQueue_inFlight (hi : (s.loop p l).slot? = some i) (hf : s.inFlight i = true) : s.rescuedToQueue p l = none := by
  have hex := (exists_order_iff s i).2 hf
  unfold State.rescuedToQueue
  cases hx : s.loop p l <;> rw [hx] at hi <;> cases hi <;> simp only [hex, if_true, true_or]

/-- No orbit is reserved for a call of a loop but one in TALK (R110). -/
theorem reservation_of_loop (hs : s.holdersOk) (hr : s.slot i = .live r) (hloc : r.loc = .loop p l) (hx : s.loop p l ≠ .talk i) :
    s.reservation i = none := by
  refine reservation_none fun o ho => ?_
  obtain ⟨q, m, hl, ht⟩ | ⟨m, hl, -⟩ := (fitted_of_holders hs hr).1.fits.reserved o ho
  · rw [hloc] at hl
    cases hl
    exact hx ht
  · rw [hloc] at hl
    cases hl

theorem loopRescued_inFlight (hs : s.holdersOk) (hh : (s.loop p l).held? = some i) (hr : s.slot i = .live r) (hloc : r.loc = .loop p l)
    (hf : s.inFlight i = true) : LoopRescued s ((s.loopIdle p l).rescueInFlight p (s.loop p l) i) p l := by
  have hi : (s.loop p l).slot? = some i := (slot?_eq_some _ _).2 (.inr (.inr hh))
  have hres : (s.loopIdle p l).reservation i = s.reservation i := rfl
  have hentry : (s.loopIdle p l).entry? i = s.entry? i := rfl
  refine .of_kept (idled_leaveHolder hr hloc) hi hr (rescuedToQueue_inFlight hi hf) (fun j hj => by rw [hj] at hh; cases hh) ?_
  have hfields : ((s.loopIdle p l).leaveHolder i).slots = s.slots ∧ ((s.loopIdle p l).leaveHolder i).orders = s.orders :=
    ⟨by rw [leaveHolder_slots]; rfl, by rw [leaveHolder_orders]; rfl⟩
  have hrecord : r.inRescue ⟨p, (s.loop p l).condition, s.reservation i, (s.loop p l).isLocked && (s.entry? i).any fun e => e.order == .release⟩ =
      s.rescuedRecord p l i r := by
    unfold State.rescuedRecord
    cases hx : s.loop p l with
    | idle => rw [hx] at hh; cases hh
    | alerting j => rw [hx] at hh; cases hh
    | connecting j => rw [hx] at hh; cases hh
    | talk j => simp only [hf, if_true]; rfl
    | _ j =>
      rw [reservation_of_loop hs hr hloc (by rw [hx]; exact nofun)]
      simp only [hf, if_true]
      rfl
  unfold State.rescueInFlight
  simp only
  rw [hres, hentry, enterRescue_of_loop hs hr hloc, hrecord, rescueEntries_inFlight hi hr hf, List.append_nil]
  obtain ⟨hslots, horders⟩ := hfields
  generalize (s.loopIdle p l).leaveHolder i = y at hslots horders
  rw [← hslots, ← horders]
  rfl

/-! ### With no order in flight -/

/-- The loop's call enters the rescue set and its rescue order is issued (R86). -/
theorem enterRescue_issue (hs : s.holdersOk) (hr : s.settled i r) (hloc : r.loc = .loop p l) (m : Rescue) (o : Order) (k : Mark) :
    ((s.loopIdle p l).enterRescue i m).issue i o k = { (s.loopIdle p l).leaveHolder i with
      slots := s.slots.set i (.live (r.inRescue m)), orders := s.orders ++ [Entry.fresh i r o k] } := by
  have hslots : ((s.loopIdle p l).leaveHolder i).slots = s.slots := by rw [leaveHolder_slots]; rfl
  have horders : ((s.loopIdle p l).leaveHolder i).orders = s.orders := by rw [leaveHolder_orders]; rfl
  rw [enterRescue_of_loop hs hr.1 hloc]
  generalize (s.loopIdle p l).leaveHolder i = y at hslots horders
  have hsettled : (y.setSlot i (.live (r.inRescue m))).settled i (r.inRescue m) :=
    ⟨slot_setSlot_self y i _, fun e he => hr.2 e (by rw [← horders]; exact he)⟩
  rw [issue_fresh hsettled, ← hslots, ← horders]
  rfl

theorem LoopRescued.of_issue (hs : s.holdersOk) (hh : (s.loop p l).held? = some i) (hr : s.settled i r) (hloc : r.loc = .loop p l)
    {m : Rescue} {o : Order} {k : Mark} (hto : s.rescuedToQueue p l = none) (hentries : s.rescueEntries s p l = [Entry.fresh i r o k])
    (hrec : s.rescuedRecord p l i r = r.inRescue m) : LoopRescued s (((s.loopIdle p l).enterRescue i m).issue i o k) p l := by
  refine .of_kept (idled_leaveHolder hr.1 hloc) ((slot?_eq_some _ _).2 (.inr (.inr hh))) hr.1 hto
    (fun j hj => by rw [hj] at hh; cases hh) ?_
  rw [hrec, hentries]
  exact enterRescue_issue hs hr hloc m o k

/-- The TRANSFER of an EXTEND call, and step 6 (R86). -/
theorem LoopRescued.of_transfer (hs : s.holdersOk) (hh : (s.loop p l).held? = some i) (hr : s.settled i r) (hloc : r.loc = .loop p l)
    {m : Rescue} {o : Order} {k : Mark} (hto : s.rescuedToQueue p l = none) (hentries : s.rescueEntries s p l = [Entry.fresh i r o k])
    (hrec : s.rescuedRecord p l i r = ({ r with step := 6 } : Record).inRescue m) :
    LoopRescued s ((((s.loopIdle p l).enterRescue i m).issue i o k).setStep i 6) p l := by
  refine .of_kept (idled_leaveHolder hr.1 hloc) ((slot?_eq_some _ _).2 (.inr (.inr hh))) hr.1 hto
    (fun j hj => by rw [hj] at hh; cases hh) ?_
  rw [hrec, hentries, enterRescue_issue hs hr hloc]
  generalize (s.loopIdle p l).leaveHolder i = y
  have hlive : State.slot { y with slots := s.slots.set i (.live (r.inRescue m)), orders := s.orders ++ [Entry.fresh i r o k] } i =
      .live (r.inRescue m) := slot_setSlot_self s i _
  rw [State.setStep, updRec_slots_of_live hlive]
  refine (congrArg (fun x => { y with slots := x, orders := s.orders ++ [Entry.fresh i r o k] }) ?_)
  exact Vector.set_set _ _

/-- The orders issued for the call of a loop with no order in flight (R86). -/
def State.settledEntries (s u : State) (p : Pos) (l : LoopNo) (i : Slot) (r : Record) : List Entry :=
  match s.loop p l with
  | .talk _ => [Entry.fresh i r .hold .none]
  | .held _ | .recalling _ => u.nightEntries i r
  | .extend _ =>
    if r.step = 3 then [Entry.fresh i r .transfer .unscreened]
    else if r.step = 5 then [Entry.fresh i r .transfer .screened]
    else u.nightEntries i r
  | .locked _ => [Entry.fresh i r .release .none]
  | .idle | .alerting _ | .connecting _ => []

theorem not_exists_order (hf : s.inFlight i = false) : ¬ ∃ e ∈ s.orders, e.slot = i := fun hc => by
  rw [(exists_order_iff s i).1 hc] at hf
  cases hf

theorem rescueEntries_settled {u : State} (hi : (s.loop p l).slot? = some i) (hr : s.slot i = .live r) (hf : s.inFlight i = false) :
    s.rescueEntries u p l = s.settledEntries u p l i r := by
  simp only [State.rescueEntries, hi, hr]
  exact if_neg (not_exists_order hf)

theorem loopRescued_settled (hs : s.holdersOk) (hfailed : (s.pos p).state = .faulted) (hh : (s.loop p l).held? = some i)
    (hr : s.slot i = .live r) (hloc : r.loc = .loop p l) (hf : s.inFlight i = false) :
    LoopRescued s ((s.loopIdle p l).rescueSettled p (s.loop p l) i) p l := by
  have hnone := not_exists_order hf
  have hset : s.settled i r := ⟨hr, fun e he hc => hnone ⟨e, he, hc⟩⟩
  have hi : (s.loop p l).slot? = some i := (slot?_eq_some _ _).2 (.inr (.inr hh))
  have hstep : s.stepOf i = r.step := by rw [State.stepOf, (record?_eq_some s i).2 hr]
  have hqueued (hto : s.rescuedToQueue p l = some i) (hrec : s.rescuedRecord p l i r = s.recalled r .positionLost none)
      (hentries : s.rescueEntries s p l = s.nightEntries i r) :
      LoopRescued s ((s.loopIdle p l).recallFrom i .positionLost none) p l :=
    .of_recall (idled_leaveHolder hr hloc) hi hset hfailed hto hrec hentries (fun j hj => by rw [hj] at hh; cases hh) rfl
  have hentry := rescueEntries_settled (u := s) hi hr hf
  cases hx : s.loop p l with
  | idle => rw [hx] at hh; cases hh
  | alerting j => rw [hx] at hh; cases hh
  | connecting j => rw [hx] at hh; cases hh
  | talk j =>
    refine .of_issue hs hh hset hloc (by rw [State.rescuedToQueue, hx]) (by rw [hentry, State.settledEntries, hx]) ?_
    simp only [State.rescuedRecord, hx, hf, Bool.false_eq_true, if_false]
  | locked j =>
    refine .of_issue hs hh hset hloc (by rw [State.rescuedToQueue, hx]) (by rw [hentry, State.settledEntries, hx]) ?_
    simp only [State.rescuedRecord, hx, hf, Bool.false_eq_true, if_false]
  | held j =>
    rw [hx] at hh
    cases hh
    refine hqueued ?_ ?_ (by rw [hentry, State.settledEntries, hx])
    · simp only [State.rescuedToQueue, hx, hnone, if_false]
    · simp only [State.rescuedRecord, hx, hf, Bool.false_eq_true, if_false]
  | recalling j =>
    rw [hx] at hh
    cases hh
    refine hqueued ?_ ?_ (by rw [hentry, State.settledEntries, hx])
    · simp only [State.rescuedToQueue, hx, hnone, if_false]
    · simp only [State.rescuedRecord, hx, hf, Bool.false_eq_true, if_false]
  | extend j =>
    have hrec : (s.loopIdle p l).record? i = some r := (record?_eq_some s i).2 hr
    have hj : j = i := by rw [hx] at hh; cases hh; rfl
    subst hj
    simp only [State.rescueSettled, hrec]
    by_cases h3 : r.step = 3
    · rw [if_pos h3]
      refine .of_transfer hs hh hset hloc ?_ ?_ ?_
      · simp only [State.rescuedToQueue, hx, hstep, h3, true_or, or_true, if_true]
      · simp only [hentry, State.settledEntries, hx, h3, if_true]
      · simp only [State.rescuedRecord, hx, hf, h3, Bool.false_eq_true, if_false, true_or, if_true]
    · by_cases h5 : r.step = 5
      · rw [if_neg h3, if_pos h5]
        refine .of_transfer hs hh hset hloc ?_ ?_ ?_
        · simp only [State.rescuedToQueue, hx, hstep, h5, or_true, if_true]
        · simp only [hentry, State.settledEntries, hx, if_neg h3, if_pos h5]
        · simp only [State.rescuedRecord, hx, hf, h5, Bool.false_eq_true, if_false, or_true, if_true]
      · rw [if_neg h3, if_neg h5]
        refine hqueued ?_ ?_ ?_
        · simp only [State.rescuedToQueue, hx, hstep, hnone, h3, h5, or_self, if_false]
        · simp only [State.rescuedRecord, hx, hf, h3, h5, Bool.false_eq_true, if_false, or_self]
        · simp only [hentry, State.settledEntries, hx, if_neg h3, if_neg h5]

end

/-! ### Any loop -/

/-- The rescue of a loop of a FAULTED position (R85 step 3). -/
theorem loopRescued {s : State} {p : Pos} (hs : s.holdersOk) (hq : s.queueOk) (hfailed : (s.pos p).state = .faulted) (l : LoopNo) :
    LoopRescued s (s.rescueLoop p l) p l := by
  obtain ⟨hloops, -⟩ := id hs
  obtain ⟨halerting, hconnecting, hheld⟩ := hloops p l
  have hcall {i : Slot} {x : LoopState} (hx : s.loop p l = x) (hi : x.held? = some i) : LoopRescued s
      (if s.inFlight i then (s.loopIdle p l).rescueInFlight p x i else (s.loopIdle p l).rescueSettled p x i) p l := by
    subst hx
    obtain ⟨r, hr, hloc⟩ := hheld i hi
    split
    · next hf => exact loopRescued_inFlight hs hi hr hloc hf
    · next hf => exact loopRescued_settled hs hfailed hi hr hloc (Bool.eq_false_iff.2 hf)
  unfold State.rescueLoop
  cases hx : s.loop p l with
  | idle => exact loopRescued_idle hx
  | alerting i =>
    obtain ⟨r, hr, -, -⟩ := halerting i hx
    exact loopRescued_alerting hx hr
  | connecting i =>
    obtain ⟨r, c, hr, hc, -, -⟩ := hconnecting i hx
    have hclaim : (s.record? i).bind Record.claim = some c := by rw [(record?_eq_some s i).2 hr, Option.bind_some, hc]
    simp only [hclaim]
    split
    · next hg => exact loopRescued_granted hs hq hx hr hc hg
    · next hg => exact loopRescued_waiting hx hr hc (Bool.eq_false_iff.2 hg)
  | talk i => exact hcall hx rfl
  | held i => exact hcall hx rfl
  | recalling i => exact hcall hx rfl
  | extend i => exact hcall hx rfl
  | locked i => exact hcall hx rfl

end Sys2Proof.Machine
end

section
/-! PROOFS. The rescue of several loops of a failed position, one after another (R85 step 3). -/

namespace Sys2Proof.Machine

/-! ### A call is at one loop of a position at most -/

theorem live_of_loop {s : State} (hs : s.holdersOk) {p : Pos} {l : LoopNo} {i : Slot} (hi : (s.loop p l).slot? = some i) :
    ∃ r, s.slot i = .live r := by
  obtain ⟨hloops, -⟩ := id hs
  obtain ⟨halerting, hconnecting, hheld⟩ := hloops p l
  obtain hx | hx | hx := (slot?_eq_some _ _).1 hi
  · obtain ⟨r, hr, -⟩ := halerting i hx
    exact ⟨r, hr⟩
  · obtain ⟨r, c, hr, -⟩ := hconnecting i hx
    exact ⟨r, hr⟩
  · obtain ⟨r, hr, -⟩ := hheld i hx
    exact ⟨r, hr⟩

/-- A claim for the call that another loop of the position holds would wait for a park HOLD, and both loops would hold the voice
path (R72). -/
theorem not_connecting_of_held {s : State} (hs : s.holdersOk) {p : Pos} {l m : LoopNo} {i : Slot} (hx : s.loop p l = .connecting i)
    (hh : (s.loop p m).held? = some i) : False := by
  obtain ⟨r, hr⟩ := live_of_loop hs ((slot?_eq_some _ _).2 (.inr (.inl hx)))
  obtain ⟨hfit, -, hwait⟩ := fitted_of_holders hs hr
  have hloc := (hfit.fits.held p m).1 hh
  obtain ⟨c, hc, hpos, hloop⟩ := (hfit.fits.connecting p l).1 hx
  cases hg : c.granted with
  | true => obtain h | ⟨o, h⟩ := hfit.fits.claimed c hc hg <;> rw [hloc] at h <;> cases h
  | false =>
    obtain ⟨-, ⟨o, h⟩ | ⟨o, h⟩⟩ := hwait c hc hg
    · rw [hloc] at h
      cases h
    · obtain ⟨q, n, h, ht⟩ | ⟨m', h, -⟩ := hfit.fits.reserved o h
      · rw [hloc] at h
        cases h
        obtain ⟨-, -, -, -, -, hvoice⟩ := id hs
        have hlm := (hvoice p l m).1 (holdsVoice_of_path (by rw [hx]; rfl)) (holdsVoice_of_path (by rw [ht]; rfl))
        rw [hlm, ht] at hx
        cases hx
      · rw [hloc] at h
        cases h

theorem loop_unique {s : State} (hs : s.holdersOk) {p : Pos} {l m : LoopNo} {i : Slot} (hl : (s.loop p l).slot? = some i)
    (hm : (s.loop p m).slot? = some i) : l = m := by
  obtain ⟨r, hr⟩ := live_of_loop hs hl
  obtain ⟨hfit, -, -⟩ := fitted_of_holders hs hr
  have hfits := hfit.fits
  have halerting {a b : LoopNo} (ha : s.loop p a = .alerting i) (hb : (s.loop p b).slot? = some i) : a = b := by
    have hmark := (hfits.alerting p a).1 ha
    obtain ⟨hq, hclaim, -⟩ := hfits.marked (by rw [hmark]; exact nofun)
    obtain hb | hb | hb := (slot?_eq_some _ _).1 hb
    · have := (hfits.alerting p b).1 hb
      rw [hmark] at this
      cases this
      rfl
    · obtain ⟨c, hc, -⟩ := (hfits.connecting p b).1 hb
      rw [hclaim] at hc
      cases hc
    · have := (hfits.held p b).1 hb
      rw [hq] at this
      cases this
  obtain h1 | h1 | h1 := (slot?_eq_some _ _).1 hl
  · exact halerting h1 hm
  · obtain h2 | h2 | h2 := (slot?_eq_some _ _).1 hm
    · exact (halerting h2 hl).symm
    · obtain ⟨c, hc, -, hcl⟩ := (hfits.connecting p l).1 h1
      obtain ⟨c', hc', -, hcm⟩ := (hfits.connecting p m).1 h2
      rw [hc] at hc'
      cases hc'
      exact hcl.symm.trans hcm
    · exact (not_connecting_of_held hs h1 h2).elim
  · obtain h2 | h2 | h2 := (slot?_eq_some _ _).1 hm
    · exact (halerting h2 hl).symm
    · exact (not_connecting_of_held hs h2 h1).elim
    · have := (hfits.held p l).1 h1
      rw [(hfits.held p m).1 h2] at this
      cases this
      rfl

/-! ### Several loops -/

/-- A call queued in the rescue of some loops brings its tenant to its threshold at a position (R46). -/
def State.reachesAmong (s : State) (p : Pos) (ls : List LoopNo) (q : Pos) : Prop :=
  ∃ l ∈ ls, ∃ i t, s.rescuedToQueue p l = some i ∧ s.tenantOf i = some t ∧ (s.tenant t).threshold ≠ 0 ∧
    ((s.rescueQueue p ((List.finRange 6).take (l.val + 1))).filter fun j => s.tenantOf j == some t).length = (s.tenant t).threshold ∧
    (s.pos q).tenantMask.getLsbD t.val = true ∧ ((s.pos q).state = .opened ∨ (s.pos q).state = .withdrawn) ∧
    (s.pos q).latchMask.getLsbD AlertKind.queueThreshold.bit = true

/-- What the rescue of some loops of a FAULTED position does. -/
structure LoopsRescued (s t : State) (p : Pos) (ls : List LoopNo) : Prop where
  frame : t = { s with slots := t.slots, queue := t.queue, orders := t.orders, orbits := t.orbits, positions := t.positions }
  slot : ∀ i, (∀ l ∈ ls, (s.loop p l).slot? ≠ some i) → t.slot i = s.slot i
  call : ∀ l ∈ ls, ∀ i r, (s.loop p l).slot? = some i → s.slot i = .live r → t.slot i = .live (s.rescuedRecord p l i r)
  queue : t.queue = s.rescueQueue p ls
  orders : t.orders = s.orders ++ ls.flatMap fun l => s.rescueEntries s p l
  orbit : ∀ o, ((∃ l ∈ ls, s.claimFrees p l o) → t.orbit o = .empty) ∧ (¬ (∃ l ∈ ls, s.claimFrees p l o) → t.orbit o = s.orbit o)
  loop : ∀ m, t.loop p m = if m ∈ ls then .idle else s.loop p m
  own : (s.pos p).sameSettings (t.pos p) ∧ (t.pos p).txq = (s.pos p).txq
  others : ∀ q, q ≠ p →
    (s.reachesAmong p ls q → (∀ a ∈ (s.pos q).alerts, a.kind ≠ .queueThreshold) → s.thresholdRaised t q) ∧
    (¬ s.reachesAmong p ls q ∨ (∃ a ∈ (s.pos q).alerts, a.kind = .queueThreshold) → t.pos q = s.pos q)

theorem rescueEntries_slot {s u : State} {p : Pos} {l : LoopNo} {e : Entry} (h : e ∈ s.rescueEntries u p l) :
    (s.loop p l).slot? = some e.slot := by
  have hnight {i : Slot} {r : Record} (h : e ∈ u.nightEntries i r) : e.slot = i := by
    unfold State.nightEntries at h
    split at h
    · split at h
      · rw [List.mem_singleton.1 h]; rfl
      · cases h
    · cases h
  unfold State.rescueEntries at h
  split at h
  · cases h
  · next i hi =>
    rw [hi]
    split at h
    · split at h
      · cases h
      · have hslot : e.slot = i := by
          split at h
          · rw [List.mem_singleton.1 h]; rfl
          · exact hnight h
          · exact hnight h
          · split at h
            · rw [List.mem_singleton.1 h]; rfl
            · split at h
              · rw [List.mem_singleton.1 h]; rfl
              · exact hnight h
          · rw [List.mem_singleton.1 h]; rfl
          · cases h
          · cases h
          · cases h
        rw [hslot]
    · cases h

theorem rescuedToQueue_slot {s : State} {p : Pos} {l : LoopNo} {i : Slot} (h : s.rescuedToQueue p l = some i) :
    (s.loop p l).slot? = some i := by
  unfold State.rescuedToQueue at h
  split at h
  · next hx =>
    split at h <;> cases h
    rw [hx]; rfl
  · next hx =>
    split at h <;> cases h
    rw [hx]; rfl
  · next hx =>
    split at h <;> cases h
    rw [hx]; rfl
  · cases h

theorem rescuedRecord_tenant (s : State) (p : Pos) (l : LoopNo) (i : Slot) (r : Record) : (s.rescuedRecord p l i r).tenant = r.tenant := by
  unfold State.rescuedRecord
  cases s.loop p l with
  | idle => rfl
  | alerting _ => rfl
  | connecting _ => simp only; split <;> rfl
  | talk _ => rfl
  | held _ => simp only; split <;> rfl
  | recalling _ => simp only; split <;> rfl
  | extend _ =>
    simp only
    split
    · rfl
    · split <;> rfl
  | locked _ => rfl

end Sys2Proof.Machine
end

section
/-! PROOFS. The rescue of one loop more (R85 step 3, R43, R46). -/

namespace Sys2Proof.Machine

section
variable {s t : State} {p : Pos} {ls : List LoopNo} {l : LoopNo} {i : Slot}

/-! ### What the rescue of other loops leaves for a loop -/

theorem LoopsRescued.loop_same (h : LoopsRescued s t p ls) (hl : l ∉ ls) : t.loop p l = s.loop p l := (h.loop l).trans (if_neg hl)

theorem not_among (hs : s.holdersOk) (hl : l ∉ ls) (hi : (s.loop p l).slot? = some i) : ∀ m ∈ ls, (s.loop p m).slot? ≠ some i :=
  fun _ hm hc => hl (loop_unique hs hi hc ▸ hm)

theorem LoopsRescued.slot_same (h : LoopsRescued s t p ls) (hs : s.holdersOk) (hl : l ∉ ls) (hi : (s.loop p l).slot? = some i) :
    t.slot i = s.slot i := h.slot i (not_among hs hl hi)

/-- No order is issued for the call of another loop. -/
theorem LoopsRescued.no_entry (h : ∀ m ∈ ls, (s.loop p m).slot? ≠ some i) : ∀ e ∈ ls.flatMap fun m => s.rescueEntries s p m, e.slot ≠ i := by
  intro e he hc
  obtain ⟨m, hm, he⟩ := List.mem_flatMap.1 he
  exact h m hm (hc ▸ rescueEntries_slot he)

theorem LoopsRescued.entry_same (h : LoopsRescued s t p ls) (hs : s.holdersOk) (hl : l ∉ ls) (hi : (s.loop p l).slot? = some i) :
    t.entry? i = s.entry? i := by
  have hnone : (ls.flatMap fun m => s.rescueEntries s p m).find? (fun e => e.slot == i) = none :=
    List.find?_eq_none.2 fun e he hc => LoopsRescued.no_entry (not_among hs hl hi) e he (beq_iff_eq.1 hc)
  rw [State.entry?, h.orders, List.find?_append, hnone, Option.or_none]
  rfl

theorem LoopsRescued.inFlight_same (h : LoopsRescued s t p ls) (hs : s.holdersOk) (hl : l ∉ ls) (hi : (s.loop p l).slot? = some i) :
    t.inFlight i = s.inFlight i := by
  have hnone : (ls.flatMap fun m => s.rescueEntries s p m).any (fun e => e.slot == i) = false :=
    List.any_eq_false.2 fun e he hc => LoopsRescued.no_entry (not_among hs hl hi) e he (beq_iff_eq.1 hc)
  rw [State.inFlight, h.orders, List.any_append, hnone, Bool.or_false]
  rfl

theorem LoopsRescued.exists_order (h : LoopsRescued s t p ls) (hs : s.holdersOk) (hl : l ∉ ls) (hi : (s.loop p l).slot? = some i) :
    (∃ e ∈ t.orders, e.slot = i) ↔ ∃ e ∈ s.orders, e.slot = i := by
  rw [exists_order_iff, exists_order_iff, h.inFlight_same hs hl hi]

theorem LoopsRescued.reserved_iff (h : LoopsRescued s t p ls) (o : OrbitNo) : t.orbit o = .reserved i ↔ s.orbit o = .reserved i := by
  by_cases hc : ∃ m ∈ ls, s.claimFrees p m o
  · obtain ⟨m, hm, j, hj, -⟩ := id hc
    rw [(h.orbit o).1 hc, hj]
    exact iff_of_false nofun nofun
  · rw [(h.orbit o).2 hc]

theorem LoopsRescued.reservation_same (h : LoopsRescued s t p ls) (i : Slot) : t.reservation i = s.reservation i := by
  have hpred : (fun o => t.orbit o == .reserved i) = fun o => s.orbit o == .reserved i := by
    funext o
    rw [Bool.eq_iff_iff, beq_iff_eq, beq_iff_eq]
    exact h.reserved_iff o
  rw [State.reservation, State.reservation, hpred]

theorem LoopsRescued.granted_same (h : LoopsRescued s t p ls) (hs : s.holdersOk) (hl : l ∉ ls) (hi : (s.loop p l).slot? = some i) :
    t.claimGranted i = s.claimGranted i := by
  unfold State.claimGranted
  rw [h.slot_same hs hl hi]

theorem LoopsRescued.clock (h : LoopsRescued s t p ls) :
    t.tick = s.tick ∧ t.tenants = s.tenants ∧ t.night = s.night := by
  rw [h.frame]
  exact ⟨rfl, rfl, rfl⟩

theorem LoopsRescued.record_same (h : LoopsRescued s t p ls) (hs : s.holdersOk) (hl : l ∉ ls) (hi : (s.loop p l).slot? = some i)
    (r : Record) : t.rescuedRecord p l i r = s.rescuedRecord p l i r := by
  obtain ⟨htick, htenants, -⟩ := h.clock
  have haging : t.agingTimer r = s.agingTimer r := by simp only [State.agingTimer, State.tenant, htick, htenants]
  have hrecalled : t.recalled r .positionLost none = s.recalled r .positionLost none := by
    simp only [State.recalled, State.tenant, htick, htenants]
  unfold State.rescuedRecord
  rw [h.loop_same hl, haging, hrecalled, h.reservation_same, h.entry_same hs hl hi, h.inFlight_same hs hl hi, h.granted_same hs hl hi]

theorem LoopsRescued.toQueue_same (h : LoopsRescued s t p ls) (hs : s.holdersOk) (hl : l ∉ ls) :
    t.rescuedToQueue p l = s.rescuedToQueue p l := by
  unfold State.rescuedToQueue
  rw [h.loop_same hl]
  cases hx : s.loop p l with
  | held i => simp only [h.exists_order hs hl (i := i) (by rw [hx]; rfl)]
  | recalling i => simp only [h.exists_order hs hl (i := i) (by rw [hx]; rfl)]
  | extend i =>
    have hi : (s.loop p l).slot? = some i := by rw [hx]; rfl
    have hstep : t.stepOf i = s.stepOf i := by
      unfold State.stepOf State.record?
      rw [h.slot_same hs hl hi]
    simp only [h.exists_order hs hl hi, hstep]
  | _ => rfl

theorem LoopsRescued.entries_same (h : LoopsRescued s t p ls) (hs : s.holdersOk) (hl : l ∉ ls) :
    t.rescueEntries t p l = s.rescueEntries s p l := by
  obtain ⟨-, htenants, hnight⟩ := h.clock
  have hentries (i : Slot) (r : Record) : t.nightEntries i r = s.nightEntries i r := by
    simp only [State.nightEntries, State.tenant, htenants, hnight]
  unfold State.rescueEntries
  rw [h.loop_same hl]
  cases hi : (s.loop p l).slot? with
  | none => rfl
  | some i => simp only [h.slot_same hs hl hi, h.exists_order hs hl hi, hentries]

theorem LoopsRescued.frees_iff (h : LoopsRescued s t p ls) (hs : s.holdersOk) (hl : l ∉ ls) (o : OrbitNo) :
    t.claimFrees p l o ↔ s.claimFrees p l o := by
  refine exists_congr fun i => ?_
  rw [h.loop_same hl]
  by_cases hx : s.loop p l = .connecting i
  · have hi : (s.loop p l).slot? = some i := by rw [hx]; rfl
    rw [h.granted_same hs hl hi]
    refine and_congr_left fun _ => ?_
    by_cases hc : ∃ m ∈ ls, s.claimFrees p m o
    · obtain ⟨m, hm, j, hj, hy, -⟩ := id hc
      rw [(h.orbit o).1 hc, hj]
      refine iff_of_false nofun fun hji => ?_
      cases hji
      exact not_among hs hl hi m hm (by rw [hy]; rfl)
    · rw [(h.orbit o).2 hc]
  · exact iff_of_false (fun hc => hx hc.2.1) fun hc => hx hc.2.1

/-! ### The queue list -/

theorem rescueQueue_concat (hs : s.holdersOk) (hl : l ∉ ls) : s.rescueQueue p (ls ++ [l]) =
    ((s.rescueQueue p ls).filter fun i => !(s.loop p l == .connecting i && s.claimGranted i)) ++ (s.rescuedToQueue p l).toList := by
  unfold State.rescueQueue
  have hjoined : (ls.filterMap fun m => s.rescuedToQueue p m).filter (fun i => !(s.loop p l == .connecting i && s.claimGranted i)) =
      ls.filterMap fun m => s.rescuedToQueue p m := by
    refine List.filter_eq_self.2 fun i hi => ?_
    obtain ⟨m, hm, hto⟩ := List.mem_filterMap.1 hi
    rw [Bool.not_eq_true', Bool.and_eq_false_iff]
    refine .inl (beq_eq_false_iff_ne.2 fun hx => ?_)
    exact not_among hs hl (by rw [hx]; rfl) m hm (rescuedToQueue_slot hto)
  have hlast : [l].filterMap (fun m => s.rescuedToQueue p m) = (s.rescuedToQueue p l).toList := by
    cases h : s.rescuedToQueue p l with
    | none => rw [List.filterMap_cons_none h]; rfl
    | some i => rw [List.filterMap_cons_some h]; rfl
  rw [List.filterMap_append, hlast, List.filter_append, hjoined, List.filter_filter, List.append_assoc]
  refine congrArg (· ++ _) (List.filter_congr fun i _ => ?_)
  rw [List.any_append, List.any_cons, List.any_nil, Bool.or_false, Bool.not_or, Bool.and_comm]

theorem LoopsRescued.queue_next (h : LoopsRescued s t p ls) (hs : s.holdersOk) (hl : l ∉ ls) :
    t.rescueQueue p [l] = s.rescueQueue p (ls ++ [l]) := by
  rw [rescueQueue_singleton, rescueQueue_concat hs hl, h.toQueue_same hs hl, h.queue, h.loop_same hl]
  refine congrArg (· ++ _) (List.filter_congr fun i _ => ?_)
  by_cases hx : s.loop p l = .connecting i
  · rw [h.granted_same hs hl (by rw [hx]; rfl)]
  · rw [beq_eq_false_iff_ne.2 hx]
    rfl

/-! ### The tenants of the calls -/

theorem LoopsRescued.tenantOf_same (h : LoopsRescued s t p ls) (hs : s.holdersOk) (i : Slot) : t.tenantOf i = s.tenantOf i := by
  by_cases hi : ∃ m ∈ ls, (s.loop p m).slot? = some i
  · obtain ⟨m, hm, hi⟩ := hi
    obtain ⟨r, hr⟩ := live_of_loop hs hi
    rw [tenantOf_of_live hr, tenantOf_of_live (h.call m hm i r hi hr), rescuedRecord_tenant]
  · have hsame := h.slot i fun m hm hc => hi ⟨m, hm, hc⟩
    unfold State.tenantOf State.record?
    rw [hsame]

end

end Sys2Proof.Machine
end

section
/-! PROOFS. The rescue of all six loops, and the failed position (R85, R46, R62). -/

namespace Sys2Proof.Machine

section
variable {s t u : State} {p : Pos} {ls : List LoopNo} {l : LoopNo}

/-! ### One loop more -/

theorem LoopRescued.tenantOf_same (h : LoopRescued t u p l) (ht : t.holdersOk) (i : Slot) : u.tenantOf i = t.tenantOf i := by
  by_cases hi : (t.loop p l).slot? = some i
  · obtain ⟨r, hr⟩ := live_of_loop ht hi
    rw [tenantOf_of_live hr, tenantOf_of_live (h.call i r hi hr), rescuedRecord_tenant]
  · unfold State.tenantOf State.record?
    rw [h.slot i hi]

/-- The call that the rescue of a loop queues brings its tenant to its threshold: counted in the queue list after the loop. -/
theorem reaches_next (h : LoopsRescued s t p ls) (hstep : LoopRescued t u p l) (hs : s.holdersOk) (ht : t.holdersOk) (hl : l ∉ ls)
    (hlist : ls ++ [l] = (List.finRange 6).take (l.val + 1)) (q : Pos) (hq : t.pos q = s.pos q) :
    t.joinReaches u p l q ↔ s.reachesAmong p [l] q := by
  have htenants : u.tenants = s.tenants := by rw [hstep.frame, h.frame]
  have htenantOf (j : Slot) : u.tenantOf j = s.tenantOf j := (hstep.tenantOf_same ht j).trans (h.tenantOf_same hs j)
  have hreach (x : TenantNo) : u.reachesThreshold (t.pos q) x ↔ (s.tenant x).threshold ≠ 0 ∧
      ((s.rescueQueue p ((List.finRange 6).take (l.val + 1))).filter fun j => s.tenantOf j == some x).length = (s.tenant x).threshold ∧
      (s.pos q).tenantMask.getLsbD x.val = true ∧ ((s.pos q).state = .opened ∨ (s.pos q).state = .withdrawn) ∧
      (s.pos q).latchMask.getLsbD AlertKind.queueThreshold.bit = true := by
    rw [hq, State.reachesThreshold, State.queuedCount, hstep.queue, h.queue_next hs hl, hlist, funext htenantOf, State.tenant, htenants]
    exact Iff.rfl
  constructor
  · rintro ⟨i, r, hto, hr, hat⟩
    rw [h.toQueue_same hs hl] at hto
    rw [h.slot_same hs hl (rescuedToQueue_slot hto)] at hr
    exact ⟨l, List.mem_singleton_self l, i, r.tenant, hto, tenantOf_of_live hr, (hreach r.tenant).1 hat⟩
  · rintro ⟨m, hm, i, x, hto, hx, hat⟩
    cases List.mem_singleton.1 hm
    obtain ⟨r, hr⟩ := live_of_loop hs (rescuedToQueue_slot hto)
    rw [tenantOf_of_live hr] at hx
    cases hx
    refine ⟨i, r, by rw [h.toQueue_same hs hl, hto], ?_, (hreach r.tenant).2 hat⟩
    rw [h.slot_same hs hl (rescuedToQueue_slot hto), hr]

theorem reachesAmong_append (s : State) (p : Pos) (ls ms : List LoopNo) (q : Pos) :
    s.reachesAmong p (ls ++ ms) q ↔ s.reachesAmong p ls q ∨ s.reachesAmong p ms q := by
  constructor
  · rintro ⟨l, hl, h⟩
    exact (List.mem_append.1 hl).imp (fun hl => ⟨l, hl, h⟩) fun hl => ⟨l, hl, h⟩
  · rintro (⟨l, hl, h⟩ | ⟨l, hl, h⟩)
    · exact ⟨l, List.mem_append_left ms hl, h⟩
    · exact ⟨l, List.mem_append_right ls hl, h⟩

theorem thresholdRaised_alert {q : Pos} (h : s.thresholdRaised t q) : ∃ a ∈ (t.pos q).alerts, a.kind = .queueThreshold := by
  obtain ⟨-, -, -, halerts, -⟩ := h
  exact ⟨_, halerts ▸ List.mem_append_right _ (List.mem_singleton_self _), rfl⟩

/-- The other positions after one loop more: an entry that came up stays, and one comes up only where none stood. -/
theorem LoopsRescued.others_next (h : LoopsRescued s t p ls) (hstep : LoopRescued t u p l) (hs : s.holdersOk) (ht : t.holdersOk)
    (hl : l ∉ ls) (hlist : ls ++ [l] = (List.finRange 6).take (l.val + 1)) {q : Pos} (hq : q ≠ p) :
    (s.reachesAmong p (ls ++ [l]) q → (∀ a ∈ (s.pos q).alerts, a.kind ≠ .queueThreshold) → s.thresholdRaised u q) ∧
    (¬ s.reachesAmong p (ls ++ [l]) q ∨ (∃ a ∈ (s.pos q).alerts, a.kind = .queueThreshold) → u.pos q = s.pos q) := by
  obtain ⟨hraised, hsame⟩ := h.others q hq
  obtain ⟨hraised', hsame'⟩ := hstep.others q hq
  have htick : u.tick = t.tick := by rw [hstep.frame]
  rw [reachesAmong_append]
  by_cases halert : ∃ a ∈ (s.pos q).alerts, a.kind = .queueThreshold
  · have htq := hsame (.inr halert)
    refine ⟨fun _ hno => ?_, fun _ => (hsame' (.inr (htq ▸ halert))).trans htq⟩
    obtain ⟨a, ha, hk⟩ := halert
    exact absurd hk (hno a ha)
  · have hno : ∀ a ∈ (s.pos q).alerts, a.kind ≠ .queueThreshold := fun a ha hk => halert ⟨a, ha, hk⟩
    by_cases hls : s.reachesAmong p ls q
    · have hup := hraised hls hno
      refine ⟨fun _ _ => ?_, fun hc => ?_⟩
      · have hstay := hsame' (.inr (thresholdRaised_alert hup))
        rw [State.thresholdRaised, hstay, htick]
        exact hup
      · exact (hc.elim (fun hc => hc (.inl hls)) halert).elim
    · have htq := hsame (.inl hls)
      have hreach := reaches_next h hstep hs ht hl hlist q htq
      rw [hreach, State.thresholdRaised, htq] at hraised'
      rw [hreach] at hsame'
      rw [or_iff_right hls]
      exact ⟨hraised', fun hc => (hsame' (hc.imp_right fun hc => htq ▸ hc)).trans htq⟩

/-- What the rescue of one loop more does. -/
theorem LoopsRescued.next (h : LoopsRescued s t p ls) (hstep : LoopRescued t u p l) (hs : s.holdersOk) (ht : t.holdersOk)
    (hl : l ∉ ls) (hlist : ls ++ [l] = (List.finRange 6).take (l.val + 1)) : LoopsRescued s u p (ls ++ [l]) := by
  have hloop := h.loop_same hl
  refine ⟨?_, fun i hi => ?_, fun m hm i r hi hr => ?_, ?_, ?_, fun o => ?_, fun m => ?_, ?_, fun q hq => h.others_next hstep hs ht hl hlist hq⟩
  · rw [hstep.frame, h.frame]
  · rw [hstep.slot i (hloop ▸ hi l (List.mem_append_right ls (List.mem_singleton_self l)))]
    exact h.slot i fun m hm => hi m (List.mem_append_left [l] hm)
  · obtain hm | hm := List.mem_append.1 hm
    · have hne : (t.loop p l).slot? ≠ some i := fun hc => by
        rw [hloop] at hc
        exact hl (loop_unique hs hi hc ▸ hm)
      rw [hstep.slot i hne, h.call m hm i r hi hr]
    · cases List.mem_singleton.1 hm
      have hslot := h.slot_same hs hl hi
      rw [hstep.call i r (hloop ▸ hi) (hslot.trans hr), h.record_same hs hl hi]
  · rw [hstep.queue, h.queue_next hs hl]
  · rw [hstep.orders, h.entries_same hs hl, h.orders, List.flatMap_append, List.append_assoc, List.flatMap_singleton]
  · have hfrees := h.frees_iff hs hl o
    have hnext : (∃ m ∈ ls ++ [l], s.claimFrees p m o) ↔ (∃ m ∈ ls, s.claimFrees p m o) ∨ s.claimFrees p l o := by
      simp only [List.mem_append, List.mem_singleton, or_and_right, exists_or, exists_eq_left]
    rw [hnext]
    by_cases hnow : s.claimFrees p l o
    · exact ⟨fun _ => (hstep.orbit o).1 (hfrees.2 hnow), fun hc => absurd (.inr hnow) hc⟩
    · rw [(hstep.orbit o).2 fun hc => hnow (hfrees.1 hc), or_iff_left hnow]
      exact h.orbit o
  · rw [hstep.loop, h.loop]
    by_cases hm : m = l
    · rw [if_pos hm, if_pos (List.mem_append_right ls (List.mem_singleton.2 hm))]
    · rw [if_neg hm]
      exact if_congr (by rw [List.mem_append, List.mem_singleton, or_iff_left hm]) rfl rfl
  · exact ⟨h.own.1.trans hstep.own.1, hstep.own.2.trans h.own.2⟩


/-! ### Loop after loop -/

theorem loopsRescued_nil (s : State) (p : Pos) : LoopsRescued s s p [] :=
  have hnone (q : Pos) : ¬ s.reachesAmong p [] q := fun ⟨_, hl, _⟩ => nomatch hl
  { frame := rfl
    slot := fun _ _ => rfl
    call := nofun
    queue := by
      rw [State.rescueQueue]
      exact ((List.append_nil _).trans (List.filter_eq_self.2 fun _ _ => rfl)).symm
    orders := (List.append_nil _).symm
    orbit := fun o => ⟨fun ⟨_, hl, _⟩ => (nomatch hl), fun _ => rfl⟩
    loop := fun _ => rfl
    own := ⟨.refl _, rfl⟩
    others := fun q _ => ⟨fun h => absurd h (hnone q), fun _ => rfl⟩ }

theorem finRange_take_succ (l : LoopNo) : (List.finRange 6).take (l.val + 1) = (List.finRange 6).take l.val ++ [l] := by
  revert l; decide

theorem not_mem_take (l : LoopNo) : l ∉ (List.finRange 6).take l.val := by
  revert l; decide

/-- The rescue of the first loops in turn (R85 step 3). -/
theorem loopsRescued_take (hs : s.holdersOk) (hq : s.queueOk) (hfailed : (s.pos p).state = .faulted) (n : Nat) (hn : n ≤ 6) :
    LoopsRescued s (((List.finRange 6).take n).foldl (fun t l => t.rescueLoop p l) s) p ((List.finRange 6).take n) ∧
    (((List.finRange 6).take n).foldl (fun t l => t.rescueLoop p l) s).holdersOk ∧
    (((List.finRange 6).take n).foldl (fun t l => t.rescueLoop p l) s).queueOk := by
  induction n with
  | zero => exact ⟨loopsRescued_nil s p, hs, hq⟩
  | succ n ih =>
    obtain ⟨h, ht, hqt⟩ := ih (Nat.le_of_succ_le hn)
    have hlist := finRange_take_succ ⟨n, hn⟩
    simp only at hlist
    rw [hlist, List.foldl_append]
    generalize ((List.finRange 6).take n).foldl (fun t l => t.rescueLoop p l) s = t at h ht hqt
    have hstep := loopRescued ht hqt (h.own.1.1.trans hfailed) ⟨n, hn⟩
    exact ⟨h.next hstep hs ht (not_mem_take ⟨n, hn⟩) hlist.symm, holders_rescueLoop ht p _,
      (event_rescueLoop t p _).keeps (fun _ _ => Work.queueOk) hqt⟩

theorem loopsRescued_all (hs : s.holdersOk) (hq : s.queueOk) (hfailed : (s.pos p).state = .faulted) :
    LoopsRescued s (allLoops.foldl (fun t l => t.rescueLoop p l) s) p (List.finRange 6) :=
  (loopsRescued_take hs hq hfailed 6 le_rfl).1

end

end Sys2Proof.Machine
end

section
/-! PROOFS. The failed position before and after its loops are rescued (R69, R85, R62). -/

namespace Sys2Proof.Machine

/-! ### Before the rescue -/

/-- A position has failed and its loops are still to be rescued (R85 steps 1 and 2). -/
structure JustFailed (s b : State) (p : Pos) : Prop where
  part : SamePart s b
  own : b.pos p = { s.pos p with carrier := false, keys := [], state := .faulted }
  others : s.sameOthers b p

/-- A CLOSED, OPEN or WITHDRAWN position as it fails: the key buffer is empty and the night state follows. -/
def State.justFailed (s : State) (p : Pos) : State :=
  if (s.pos p).state.staffed then
    (s.updPos p fun q => { q with carrier := false, keys := [], state := .faulted }).nowUnstaffed
  else s.updPos p fun q => { q with carrier := false, keys := [], state := .faulted }

theorem justFailed_just (s : State) (p : Pos) : JustFailed s (s.justFailed p) p := by
  have hpos (q : Pos) : (s.justFailed p).pos q = (s.updPos p fun q => { q with carrier := false, keys := [], state := .faulted }).pos q := by
    unfold State.justFailed
    split
    · rw [nowUnstaffed_frame]; rfl
    · rfl
  refine ⟨?_, ?_, fun q hq => ?_⟩
  · unfold State.justFailed
    split
    · rw [nowUnstaffed_frame]; rfl
    · rfl
  · rw [hpos, pos_updPos_self]
  · rw [hpos, pos_updPos_ne _ _ _ _ (Ne.symm hq)]

/-- The night state when the position fails (R62). -/
theorem justFailed_night (s : State) (p : Pos) : ((s.justFailed p).night, (s.justFailed p).nightDelay) =
    if ((s.pos p).state = .opened ∨ (s.pos p).state = .withdrawn) ∧
        ∀ q, q ≠ p → (s.pos q).state ≠ .opened ∧ (s.pos q).state ≠ .withdrawn
    then (.nightPending, some (s.tick + s.timing.nightDelay)) else (s.night, s.nightDelay) := by
  have hany : (s.updPos p fun q => { q with carrier := false, keys := [], state := .faulted }).anyStaffed = true ↔
      ¬ ∀ q, q ≠ p → (s.pos q).state ≠ .opened ∧ (s.pos q).state ≠ .withdrawn := by
    rw [anyStaffed_iff]
    constructor
    · rintro ⟨q, hq⟩ hall
      by_cases hqp : q = p
      · subst hqp
        rw [pos_updPos_self] at hq
        exact hq.elim nofun nofun
      · rw [pos_updPos_ne _ _ _ _ (Ne.symm hqp)] at hq
        exact hq.elim (hall q hqp).1 (hall q hqp).2
    · intro hnot
      by_contra hno
      refine hnot fun q hqp => ?_
      have := fun hc => hno ⟨q, hc⟩
      rw [pos_updPos_ne _ _ _ _ (Ne.symm hqp)] at this
      exact not_or.1 this
  unfold State.justFailed
  by_cases hst : (s.pos p).state.staffed = true
  · rw [if_pos hst, State.nowUnstaffed]
    have hst := (staffed_iff _).1 hst
    by_cases hall : ∀ q, q ≠ p → (s.pos q).state ≠ .opened ∧ (s.pos q).state ≠ .withdrawn
    · rw [if_neg fun hc => hany.1 hc hall, if_pos ⟨hst, hall⟩]
      rfl
    · rw [if_pos (hany.2 hall), if_neg fun hc => hall hc.2]
      rfl
  · rw [if_neg hst, if_neg fun hc => hst ((staffed_iff _).2 hc.1)]
    rfl

section
variable {s b u : State} {p : Pos}

theorem JustFailed.loop (h : JustFailed s b p) (q : Pos) (l : LoopNo) : b.loop q l = s.loop q l := by
  unfold State.loop
  by_cases hq : q = p
  · rw [hq, h.own]
  · rw [h.others q hq]

theorem JustFailed.slot (h : JustFailed s b p) (i : Slot) : b.slot i = s.slot i := by
  rw [h.part]
  rfl

theorem JustFailed.orders (h : JustFailed s b p) : b.orders = s.orders := by rw [h.part]

theorem JustFailed.sameHold (h : JustFailed s b p) : SameHold s b :=
  ⟨by rw [h.part], h.loop, by rw [h.part], by rw [h.part], by rw [h.part]⟩

theorem JustFailed.rescuedToQueue (h : JustFailed s b p) (l : LoopNo) : b.rescuedToQueue p l = s.rescuedToQueue p l := by
  have hstep (i : Slot) : b.stepOf i = s.stepOf i := by simp only [State.stepOf, State.record?, h.slot]
  simp only [State.rescuedToQueue, h.loop, h.orders, hstep]

theorem JustFailed.rescueQueue (h : JustFailed s b p) (ls : List LoopNo) : b.rescueQueue p ls = s.rescueQueue p ls := by
  have hqueue : b.queue = s.queue := by rw [h.part]
  have hgranted (i : Slot) : b.claimGranted i = s.claimGranted i := by simp only [State.claimGranted, h.slot]
  simp only [State.rescueQueue, h.loop, hgranted, h.rescuedToQueue, hqueue]

theorem JustFailed.claimFrees (h : JustFailed s b p) (l : LoopNo) (o : OrbitNo) : b.claimFrees p l o ↔ s.claimFrees p l o := by
  have horbit : b.orbit o = s.orbit o := by rw [h.part]; rfl
  have hgranted (i : Slot) : b.claimGranted i = s.claimGranted i := by simp only [State.claimGranted, h.slot]
  simp only [State.claimFrees, h.loop, hgranted, horbit]

theorem JustFailed.rescuedRecord (h : JustFailed s b p) (l : LoopNo) (i : Slot) (r : Record) :
    b.rescuedRecord p l i r = s.rescuedRecord p l i r := by
  have hgranted : b.claimGranted i = s.claimGranted i := by simp only [State.claimGranted, h.slot]
  have hflight : b.inFlight i = s.inFlight i := by rw [State.inFlight, h.orders]; rfl
  have hentry : b.entry? i = s.entry? i := by rw [State.entry?, h.orders]; rfl
  have hres : b.reservation i = s.reservation i := by rw [h.part]; rfl
  have haging : b.agingTimer r = s.agingTimer r := by rw [h.part]; rfl
  have hrecalled : b.recalled r .positionLost none = s.recalled r .positionLost none := by rw [h.part]; rfl
  unfold State.rescuedRecord
  rw [h.loop, hgranted, hflight, hentry, hres, haging, hrecalled]

/-- The orders of the rescue rest on the night state that follows the failure. -/
theorem JustFailed.rescueEntries (h : JustFailed s b p) (hnight : u.night = b.night) (htenants : u.tenants = b.tenants) (l : LoopNo) :
    b.rescueEntries b p l = s.rescueEntries u p l := by
  have hentries (i : Slot) (r : Record) : b.nightEntries i r = u.nightEntries i r := by
    simp only [State.nightEntries, State.tenant, hnight, htenants]
  simp only [State.rescueEntries, h.loop, h.slot, h.orders, hentries]

theorem JustFailed.reaches (h : JustFailed s b p) {q : Pos} (hq : q ≠ p) : b.reachesAmong p (List.finRange 6) q ↔ s.rescueReaches p q := by
  have htenant (i : Slot) : b.tenantOf i = s.tenantOf i := by simp only [State.tenantOf, State.record?, h.slot]
  have htenants (t : TenantNo) : b.tenant t = s.tenant t := by rw [h.part]; rfl
  simp only [State.reachesAmong, State.rescueReaches, h.rescuedToQueue, h.rescueQueue, htenant, htenants, h.others q hq,
    List.mem_finRange, true_and]

end

/-! ### After the rescue -/

/-- A position that is not FAULTED loses its carrier (R69, R85). -/
theorem carrierLost_fails {s : State} {p : Pos} (hc : (s.pos p).carrier = true) (ha : (s.pos p).state ≠ .absent)
    (hf : (s.pos p).state ≠ .faulted) : s.carrierLost p =
      (allLoops.foldl (fun t l => t.rescueLoop p l) (s.justFailed p)).updPos p fun q => { q.clearAlerts with note := none } := by
  have hpos : (s.updPos p fun q => { q with carrier := false }).pos p = { s.pos p with carrier := false } := pos_updPos_self s p _
  rw [State.carrierLost, if_pos (Bool.and_eq_true_iff.2 ⟨(equipped_iff _).2 ha, hc⟩)]
  simp only [hpos, if_neg hf, State.failPosition, updPos_updPos]
  rfl

end Sys2Proof.Machine
end

section
/-! PROOFS. A carrier loss fails the position and rescues its calls; a carrier return closes it (R69, R85 to R90, R155). -/

namespace Sys2Proof.Machine

section
variable {s : State} {p : Pos} {l : LoopNo} {i : Slot} {r : Record}

/-! ### A call of the position in the queue list after the rescue -/

theorem mem_rescueQueue (hs : s.holdersOk) (hi : (s.loop p l).slot? = some i) : i ∈ s.rescueQueue p (List.finRange 6) ↔
    (i ∈ s.queue ∧ ¬ (s.loop p l = .connecting i ∧ s.claimGranted i = true)) ∨ s.rescuedToQueue p l = some i := by
  unfold State.rescueQueue
  rw [List.mem_append, List.mem_filter, List.mem_filterMap, Bool.not_eq_true', List.any_eq_false]
  refine or_congr (and_congr_right fun _ => ?_) ?_
  · simp only [Bool.and_eq_true, beq_iff_eq]
    refine ⟨fun h => h l (List.mem_finRange l), fun h m _ hc => h ?_⟩
    cases loop_unique hs hi (m := m) (by rw [hc.1]; rfl)
    exact hc
  · refine ⟨fun ⟨m, _, hto⟩ => ?_, fun hto => ⟨l, List.mem_finRange l, hto⟩⟩
    cases loop_unique hs hi (rescuedToQueue_slot hto)
    exact hto

/-- A call that the loop holds is queued after the rescue only if the rescue queues it. -/
theorem not_mem_rescueQueue (hs : s.holdersOk) (hq : s.queueOk) (hh : (s.loop p l).held? = some i) (hto : s.rescuedToQueue p l = none) :
    i ∉ s.rescueQueue p (List.finRange 6) := by
  rw [mem_rescueQueue hs ((slot?_eq_some _ _).2 (.inr (.inr hh))), hto]
  rintro (⟨hm, -⟩ | h)
  · obtain ⟨r, hr, hl⟩ := (hq.2 i).1 hm
    obtain ⟨r', hr', hl'⟩ := (hs.1 p l).2.2 i hh
    rw [hr] at hr'
    cases hr'
    rw [hl] at hl'
    cases hl'
  · cases h

/-! ### What a rescue comes to, by the loop's state -/

/-- What the rescue of the position has made of one of its calls. -/
structure CallRescued (s u : State) (p : Pos) (l : LoopNo) (i : Slot) (r : Record) : Prop where
  slot : u.slot i = .live (s.rescuedRecord p l i r)
  queue : u.queue = s.rescueQueue p (List.finRange 6)
  entries : ∀ e ∈ s.rescueEntries u p l, e ∈ u.orders
  orbit : ∀ o, s.claimFrees p l o → u.orbit o = .empty

variable {u : State}

theorem CallRescued.alerting (h : CallRescued s u p l i r) (hs : s.holdersOk) (hq : s.queueOk) (hx : s.loop p l = .alerting i) :
    i ∈ u.queue ∧ u.slot i = .live { r with mark := none, timer := s.agingTimer r, held := none } := by
  have hslot := h.slot
  rw [State.rescuedRecord, hx] at hslot
  refine ⟨?_, hslot⟩
  obtain ⟨r', hr', hl, -⟩ := (hs.1 p l).1 i hx
  rw [h.queue, mem_rescueQueue hs (l := l) (by rw [hx]; rfl)]
  exact .inl ⟨(hq.2 i).2 ⟨r', hr', hl⟩, fun hc => by rw [hx] at hc; exact nomatch hc.1⟩

theorem CallRescued.connecting (h : CallRescued s u p l i r) (hs : s.holdersOk) (hr : s.slot i = .live r) (hx : s.loop p l = .connecting i) :
    ∃ c, r.claim = some c ∧ (c.granted = false → u.slot i = .live { r with claim := none }) ∧
      (c.granted = true → (i ∉ u.queue ∧ u.slot i = .live ({ r with claim := none }.inRescue ⟨p, .split, none, false⟩)) ∧
        ∀ o, r.loc = .parked o → u.orbit o = .empty) := by
  obtain ⟨hfit, -, -⟩ := fitted_of_holders hs hr
  obtain ⟨c, hc, -⟩ := (hfit.fits.connecting p l).1 hx
  have hgranted : s.claimGranted i = c.granted := by rw [State.claimGranted, hr]; simp only [hc, Option.any_some]
  have hslot := h.slot
  simp only [State.rescuedRecord, hx, hgranted] at hslot
  refine ⟨c, hc, fun hg => ?_, fun hg => ⟨⟨?_, ?_⟩, fun o ho => ?_⟩⟩
  · rwa [hg, if_neg Bool.false_ne_true] at hslot
  · rw [h.queue, mem_rescueQueue hs (l := l) (by rw [hx]; rfl), State.rescuedToQueue, hx]
    exact fun hc => hc.elim (fun hc => hc.2 ⟨rfl, hgranted.trans hg⟩) nofun
  · rwa [hg, if_pos rfl] at hslot
  · exact h.orbit o ⟨i, (hfit.fits.parked o).2 ho, hx, hgranted.trans hg⟩

/-- A call with its order in flight is in the rescue set and not in the queue (R88). -/
theorem CallRescued.in_set (h : CallRescued s u p l i r) (hs : s.holdersOk) (hq : s.queueOk) (hh : (s.loop p l).held? = some i)
    (hto : s.rescuedToQueue p l = none) {r' : Record} (hrec : s.rescuedRecord p l i r = r') : i ∉ u.queue ∧ u.slot i = .live r' := by
  rw [h.queue, ← hrec]
  exact ⟨not_mem_rescueQueue hs hq hh hto, h.slot⟩

/-- A call that the rescue queues (R86). -/
theorem CallRescued.to_queue (h : CallRescued s u p l i r) (hs : s.holdersOk) (hto : s.rescuedToQueue p l = some i)
    (hrec : s.rescuedRecord p l i r = s.recalled r .positionLost none) :
    i ∈ u.queue ∧ u.slot i = .live (s.recalled r .positionLost none) := by
  rw [h.queue, ← hrec]
  exact ⟨(mem_rescueQueue hs (rescuedToQueue_slot hto)).2 (.inr hto), h.slot⟩

/-- The orbit reserved for a call. -/
theorem reservation_iff (hs : s.holdersOk) (hr : s.slot i = .live r) (o : OrbitNo) : s.reservation i = some o ↔ s.orbit o = .reserved i := by
  obtain ⟨hnone, hno⟩ | ⟨o', hsome, ho⟩ := reservation_cases_of_fits (fitted_of_holders hs hr).1.fits
  · rw [hnone]
    exact iff_of_false nofun (hno o)
  · rw [hsome, ho, Option.some.injEq, eq_comm]

theorem CallRescued.issued (h : CallRescued s u p l i r) (hi : (s.loop p l).slot? = some i) (hr : s.slot i = .live r)
    (hf : s.inFlight i = false) {e : Entry} (he : s.settledEntries u p l i r = [e]) : e ∈ u.orders :=
  h.entries e (by rw [rescueEntries_settled hi hr hf, he]; exact List.mem_singleton_self e)

/-- A call that its rescue leaves in the set, with the order issued for it (R86). -/
theorem CallRescued.ordered (h : CallRescued s u p l i r) (hs : s.holdersOk) (hq : s.queueOk) (hr : s.slot i = .live r)
    (hh : (s.loop p l).held? = some i) (hf : s.inFlight i = false) (hto : s.rescuedToQueue p l = none) {r' : Record}
    (hrec : s.rescuedRecord p l i r = r') {e : Entry} (he : s.settledEntries u p l i r = [e]) :
    (i ∉ u.queue ∧ u.slot i = .live r') ∧ e ∈ u.orders :=
  ⟨h.in_set hs hq hh hto hrec, h.issued ((slot?_eq_some _ _).2 (.inr (.inr hh))) hr hf he⟩

theorem CallRescued.talk_flying (h : CallRescued s u p l i r) (hs : s.holdersOk) (hq : s.queueOk) (hx : s.loop p l = .talk i)
    (hf : s.inFlight i = true) :
    i ∉ u.queue ∧ u.slot i = .live (r.inRescue ⟨p, .connected, s.reservation i, false⟩) := by
  refine h.in_set hs hq (by rw [hx]; rfl) (by rw [State.rescuedToQueue, hx]) ?_
  simp only [State.rescuedRecord, hx, hf, if_true]

theorem CallRescued.talk_settled (h : CallRescued s u p l i r) (hs : s.holdersOk) (hq : s.queueOk) (hr : s.slot i = .live r)
    (hx : s.loop p l = .talk i) (hf : s.inFlight i = false) :
    (i ∉ u.queue ∧ u.slot i = .live (r.inRescue ⟨p, .connected, none, false⟩)) ∧ Entry.fresh i r .hold .none ∈ u.orders := by
  refine h.ordered hs hq hr (by rw [hx]; rfl) hf (by rw [State.rescuedToQueue, hx]) ?_ (by rw [State.settledEntries, hx])
  simp only [State.rescuedRecord, hx, hf, Bool.false_eq_true, if_false]

/-- A HELD, RECALLING or EXTEND loop. -/
theorem CallRescued.split_flying (h : CallRescued s u p l i r) (hs : s.holdersOk) (hq : s.queueOk)
    (hx : s.loop p l = .held i ∨ s.loop p l = .recalling i ∨ s.loop p l = .extend i) (hf : s.inFlight i = true) :
    i ∉ u.queue ∧ u.slot i = .live (r.inRescue ⟨p, .split, none, false⟩) := by
  have hh : (s.loop p l).held? = some i := by obtain hx | hx | hx := hx <;> rw [hx] <;> rfl
  refine h.in_set hs hq hh (rescuedToQueue_inFlight ((slot?_eq_some _ _).2 (.inr (.inr hh))) hf) ?_
  obtain hx | hx | hx := hx <;> simp only [State.rescuedRecord, hx, hf, if_true]

theorem CallRescued.held_settled (h : CallRescued s u p l i r) (hs : s.holdersOk) (hx : s.loop p l = .held i ∨ s.loop p l = .recalling i)
    (hf : s.inFlight i = false) : i ∈ u.queue ∧ u.slot i = .live (s.recalled r .positionLost none) := by
  have hnone := not_exists_order hf
  refine h.to_queue hs ?_ ?_
  · obtain hx | hx := hx <;> simp only [State.rescuedToQueue, hx, if_neg hnone]
  · obtain hx | hx := hx <;> simp only [State.rescuedRecord, hx, hf, Bool.false_eq_true, if_false]

/-- An EXTEND call at step 4 joins the queue; one at step 3 or 5 gets the TRANSFER of its step. -/
theorem CallRescued.extend_settled (h : CallRescued s u p l i r) (hs : s.holdersOk) (hq : s.queueOk) (hr : s.slot i = .live r)
    (hx : s.loop p l = .extend i) (hf : s.inFlight i = false) :
    (r.step = 3 → (i ∉ u.queue ∧ u.slot i = .live ({ r with step := 6 }.inRescue ⟨p, .split, none, false⟩)) ∧
      Entry.fresh i r .transfer .unscreened ∈ u.orders) ∧
    (r.step = 4 → i ∈ u.queue ∧ u.slot i = .live (s.recalled r .positionLost none)) ∧
    (r.step = 5 → (i ∉ u.queue ∧ u.slot i = .live ({ r with step := 6 }.inRescue ⟨p, .split, none, false⟩)) ∧
      Entry.fresh i r .transfer .screened ∈ u.orders) := by
  have hnone := not_exists_order hf
  have hstep : s.stepOf i = r.step := by rw [State.stepOf, (record?_eq_some s i).2 hr]
  have hh : (s.loop p l).held? = some i := by rw [hx]; rfl
  refine ⟨fun h3 => h.ordered hs hq hr hh hf ?_ ?_ ?_, fun h4 => h.to_queue hs ?_ ?_, fun h5 => h.ordered hs hq hr hh hf ?_ ?_ ?_⟩
  · simp only [State.rescuedToQueue, hx, hstep, h3, true_or, or_true, if_true]
  · simp only [State.rescuedRecord, hx, hf, h3, Bool.false_eq_true, if_false, true_or, if_true]
  · simp only [State.settledEntries, hx, if_pos h3]
  · have h3 : ¬ r.step = 3 := by rw [h4]; decide
    have h5 : ¬ r.step = 5 := by rw [h4]; decide
    simp only [State.rescuedToQueue, hx, hstep, hnone, h3, h5, or_self, if_false]
  · have h3 : ¬ r.step = 3 := by rw [h4]; decide
    have h5 : ¬ r.step = 5 := by rw [h4]; decide
    simp only [State.rescuedRecord, hx, hf, h3, h5, Bool.false_eq_true, if_false, or_self]
  · simp only [State.rescuedToQueue, hx, hstep, h5, or_true, if_true]
  · simp only [State.rescuedRecord, hx, hf, h5, Bool.false_eq_true, if_false, or_true, if_true]
  · have h3 : ¬ r.step = 3 := by rw [h5]; decide
    simp only [State.settledEntries, hx, if_neg h3, if_pos h5]

theorem CallRescued.locked_flying (h : CallRescued s u p l i r) (ho : s.ordersOk) (hs : s.holdersOk) (hq : s.queueOk)
    (hx : s.loop p l = .locked i) {e : Entry} (he : e ∈ s.orders) (hei : e.slot = i) :
    i ∉ u.queue ∧ u.slot i = .live (r.inRescue ⟨p, .connected, none, e.order == .release⟩) := by
  have hentry : s.entry? i = some e := by rw [← hei]; exact entry?_eq ho.1 he
  have hf : s.inFlight i = true := (exists_order_iff s i).1 ⟨e, he, hei⟩
  refine h.in_set hs hq (by rw [hx]; rfl) (by rw [State.rescuedToQueue, hx]) ?_
  simp only [State.rescuedRecord, hx, hf, if_true, hentry, Option.any_some]

theorem CallRescued.locked_settled (h : CallRescued s u p l i r) (hs : s.holdersOk) (hq : s.queueOk) (hr : s.slot i = .live r)
    (hx : s.loop p l = .locked i) (hf : s.inFlight i = false) :
    (i ∉ u.queue ∧ u.slot i = .live (r.inRescue ⟨p, .connected, none, true⟩)) ∧ Entry.fresh i r .release .none ∈ u.orders := by
  refine h.ordered hs hq hr (by rw [hx]; rfl) hf (by rw [State.rescuedToQueue, hx]) ?_ (by rw [State.settledEntries, hx])
  simp only [State.rescuedRecord, hx, hf, Bool.false_eq_true, if_false]

end

end Sys2Proof.Machine
end

section
/-! PROOFS. The carrier rows (R69, R85 to R90, R155, R156). -/

namespace Sys2Proof.Machine

section
variable {s t : State} {p : Pos}

/-! ### The rows -/

theorem exec_carrierLoss {t : State} (hc : (s.pos p).carrier = true) (ha : (s.pos p).state ≠ .absent) (ht : s.carrierLost p = t) :
    exec (.carrierLoss p) s = .next t.finishOffers := by
  have hrow : exec (.carrierLoss p) s = .next (s.sampleCarrier p false) := rfl
  have hchange : ((s.pos p).state.equipped && (s.pos p).carrier != false) = true := by
    rw [hc, (equipped_iff _).2 ha]
    rfl
  rw [hrow, State.sampleCarrier, if_pos hchange, if_neg Bool.false_ne_true, ht]

/-- With the carrier as it is, or at an ABSENT position, nothing happens (R155). -/
theorem sampleCarrier_same {level : Bool} (h : (s.pos p).carrier = level ∨ (s.pos p).state = .absent) : s.sampleCarrier p level = s :=
  sampleCarrier_agrees fun ha => h.resolve_right ha

theorem carrierLost_faulted (hc : (s.pos p).carrier = true) (hf : (s.pos p).state = .faulted) :
    s.carrierLost p = s.updPos p fun q => { q with carrier := false } := by
  have hequipped : ((s.pos p).state.equipped && (s.pos p).carrier) = true := by
    rw [hc, hf]
    rfl
  rw [State.carrierLost, if_pos hequipped]
  exact if_pos hf

theorem exec_carrierReturn (hc : (s.pos p).carrier = false) (ha : (s.pos p).state ≠ .absent) :
    exec (.carrierReturn p) s = .next (s.updPos p fun q => { q with
      carrier := true, state := if q.state = .faulted then .closed else q.state, sent := Picture.startup
      txq := allItems.map fun it => .item it true }).finishOffers := by
  have hrow : exec (.carrierReturn p) s = .next (s.sampleCarrier p true) := rfl
  have hchange : ((s.pos p).state.equipped && (s.pos p).carrier != true) = true := by
    rw [hc, (equipped_iff _).2 ha]
    rfl
  have hequipped : ((s.pos p).state.equipped && !(s.pos p).carrier) = true := by
    rw [hc, (equipped_iff _).2 ha]
    rfl
  rw [hrow, State.sampleCarrier, if_pos hchange, if_pos rfl, State.carrierBack, if_pos hequipped]

/-! ### The failed position -/

/-- What the loops' rescue leaves, with the alert list and the note of the failed position gone (R85 step 4). -/
def State.silenced (t : State) (p : Pos) : State := t.updPos p fun q => { q.clearAlerts with note := none }

/-- The failed position itself. -/
theorem silenced_own {b : State} (hb : JustFailed s b p) (h : LoopsRescued b t p (List.finRange 6)) {u : State} (hu : t.silenced p = u) :
    (u.pos p).state = .faulted ∧ (u.pos p).carrier = false ∧ (u.pos p).keys = [] ∧ (u.pos p).alerts = [] ∧
      (u.pos p).note = none ∧ (u.pos p).toneRepeat = none ∧ (∀ l, u.loop p l = .idle) ∧ (u.pos p).txq = (s.pos p).txq ∧
      (s.pos p).sameSettings { u.pos p with
        state := (s.pos p).state, keys := (s.pos p).keys, carrier := (s.pos p).carrier } := by
  have hpos : u.pos p = { (t.pos p).clearAlerts with note := none } := by rw [← hu, State.silenced, pos_updPos_self]
  obtain ⟨⟨hstate, hkeys, htenant, hlatch, htone, hcarrier, hsent, hpout, hrx, hline⟩, htxq⟩ := h.own
  rw [hb.own] at hstate hkeys htenant hlatch htone hcarrier hsent hpout hrx hline htxq
  have hloop (l : LoopNo) : u.loop p l = .idle := by
    have hsame : u.loop p l = t.loop p l := by
      unfold State.loop
      rw [hpos]
      rfl
    rw [hsame, h.loop, if_pos (List.mem_finRange l)]
  rw [hpos]
  exact ⟨hstate, hcarrier, hkeys, rfl, rfl, rfl, hloop, htxq, rfl, rfl, htenant, hlatch, htone, rfl, hsent, hpout, hrx, hline⟩

/-- The other positions. -/
theorem silenced_others {b : State} (hb : JustFailed s b p) (h : LoopsRescued b t p (List.finRange 6)) {u : State} (hu : t.silenced p = u)
    {q : Pos} (hq : q ≠ p) :
    (s.rescueReaches p q → (∀ a ∈ (s.pos q).alerts, a.kind ≠ .queueThreshold) → s.thresholdRaised u q) ∧
    (¬ s.rescueReaches p q ∨ (∃ a ∈ (s.pos q).alerts, a.kind = .queueThreshold) → u.pos q = s.pos q) := by
  have hpos : u.pos q = t.pos q := by rw [← hu, State.silenced, pos_updPos_ne _ _ _ _ (Ne.symm hq)]
  have htick : u.tick = t.tick := by rw [← hu]; rfl
  have := h.others q hq
  rw [hb.reaches hq, State.thresholdRaised, hb.others q hq] at this
  rw [State.thresholdRaised, hpos, htick]
  exact this

/-- The rest of the part. -/
theorem silenced_rest {b : State} (hb : JustFailed s b p) (h : LoopsRescued b t p (List.finRange 6)) {u : State} (hu : t.silenced p = u) :
    s.sameSession u ∧ u.window = s.window ∧ u.xout = s.xout ∧ u.camp = s.camp ∧ u.pointer = s.pointer ∧ u.tenants = b.tenants ∧
      u.night = b.night ∧ u.nightDelay = b.nightDelay := by
  have ht := h.frame
  have hs := hb.part
  unfold SamePart at hs
  generalize t.slots = slots, t.queue = queue, t.orders = orders, t.orbits = orbits, t.positions = ps at ht
  generalize b.positions = qs, b.night = nightState, b.nightDelay = delay at hs
  subst hu ht hs
  exact ⟨⟨rfl, rfl, rfl, rfl, rfl, rfl, rfl, rfl, rfl, rfl⟩, rfl, rfl, rfl, rfl, rfl, rfl, rfl⟩

/-- The calls of the position. -/
theorem silenced_call {b : State} (hb : JustFailed s b p) (h : LoopsRescued b t p (List.finRange 6)) {u : State} (hu : t.silenced p = u)
    {l : LoopNo} {i : Slot} {r : Record} (hr : s.slot i = .live r) (hi : (s.loop p l).slot? = some i) : CallRescued s u p l i r := by
  obtain ⟨-, -, -, -, -, htenants, hnight, -⟩ := silenced_rest hb h hu
  have hslot : u.slot i = t.slot i := by rw [← hu]; rfl
  have hqueue : u.queue = t.queue := by rw [← hu]; rfl
  have horders : u.orders = t.orders := by rw [← hu]; rfl
  refine ⟨?_, ?_, fun e he => ?_, fun o ho => ?_⟩
  · rw [hslot, h.call l (List.mem_finRange l) i r (by rw [hb.loop]; exact hi) (by rw [hb.slot]; exact hr), hb.rescuedRecord]
  · rw [hqueue, h.queue, hb.rescueQueue]
  · rw [horders, h.orders]
    refine List.mem_append_right _ (List.mem_flatMap.2 ⟨l, List.mem_finRange l, ?_⟩)
    rw [hb.rescueEntries hnight htenants]
    exact he
  · have horbit : u.orbit o = t.orbit o := by rw [← hu]; rfl
    rw [horbit]
    exact (h.orbit o).1 ⟨l, List.mem_finRange l, (hb.claimFrees l o).2 ho⟩

end

end Sys2Proof.Machine

namespace Sys2Proof
open Sys2Proof.Machine

/-- Settles O59: the loops are rescued one after another; a call is at one loop of the position at most, so that the rescue of a loop
finds its call as the failure found it. -/
theorem carrierLossAndReturn : Obligations.CarrierLossAndReturn := by
  refine ⟨fun s p ho hq hs hc ha hf => ?_, fun s p h => ?_, fun s p hc hf => ?_, fun s p => ⟨fun hc ha => exec_carrierReturn hc ha, fun h => ?_⟩⟩
  · have hb := justFailed_just s p
    have hnight := justFailed_night s p
    have hexec := exec_carrierLoss hc ha (carrierLost_fails hc ha hf)
    generalize s.justFailed p = b at hb hnight hexec
    have h := loopsRescued_all (hb.sameHold.holders hs) (queueOk_of_same (by rw [hb.part]) (fun j => by rw [hb.slot]) hq)
      (by rw [hb.own])
    generalize allLoops.foldl (fun t l => t.rescueLoop p l) b = t at h hexec
    generalize hu : t.silenced p = u
    have hexec : exec (.carrierLoss p) s = .next u.finishOffers := by rw [← hu]; exact hexec
    obtain ⟨hstate, hcarrier, hkeys, halerts, hnote, hrepeat, hloops, htxq, hset⟩ := silenced_own hb h hu
    obtain ⟨hsession, hwindow, hxout, hcamp, hpointer, htenants, hnow, hdelay⟩ := silenced_rest hb h hu
    have horders : u.orders = t.orders := by rw [← hu]; rfl
    have hqueue : u.queue = t.queue := by rw [← hu]; rfl
    refine ⟨u, hexec, hstate, hcarrier, hkeys, halerts, hnote, hrepeat, hloops, htxq, hset, fun q hq => silenced_others hb h hu hq,
      ?night, hsession, hwindow, hxout, hcamp, hpointer, ?orders, ?queue, fun i hi => ?slots, fun o => ?orbits, fun i r l hr hi => ?call⟩
    case night => rw [hnow, hdelay, hnight]
    case orders =>
      rw [horders, h.orders, hb.orders]
      exact congrArg (s.orders ++ ·) (List.flatMap_congr fun l _ => hb.rescueEntries hnow htenants l)
    case queue => rw [hqueue, h.queue, hb.rescueQueue]
    case slots =>
      have hslot : u.slot i = t.slot i := by rw [← hu]; rfl
      rw [hslot, h.slot i fun l _ => by rw [hb.loop]; exact hi l, hb.slot]
    case orbits =>
      have horbit : u.orbit o = t.orbit o := by rw [← hu]; rfl
      have hbase : b.orbit o = s.orbit o := by rw [hb.part]; rfl
      rw [horbit]
      by_cases hfree : ∃ l ∈ List.finRange 6, b.claimFrees p l o
      · obtain ⟨l, -, hl⟩ := id hfree
        obtain ⟨i, hocc, hx, -⟩ := (hb.claimFrees l o).1 hl
        exact .inr ⟨(h.orbit o).1 hfree, i, l, hocc, hx⟩
      · exact .inl (((h.orbit o).2 hfree).trans hbase)
    case call =>
      have hcall := silenced_call hb h hu hr hi
      have hflying : (∃ e ∈ s.orders, e.slot = i) → s.inFlight i = true := (exists_order_iff s i).1
      have hsettled : (¬ ∃ e ∈ s.orders, e.slot = i) → s.inFlight i = false := fun hf =>
        Bool.eq_false_iff.2 fun hc => hf ((exists_order_iff s i).2 hc)
      cases hx : s.loop p l with
      | idle => rw [hx] at hi; cases hi
      | alerting j =>
        cases hi.symm.trans (congrArg LoopState.slot? hx)
        exact hcall.alerting hs hq hx
      | connecting j =>
        cases hi.symm.trans (congrArg LoopState.slot? hx)
        exact hcall.connecting hs hr hx
      | talk j =>
        cases hi.symm.trans (congrArg LoopState.slot? hx)
        exact ⟨fun hf => ⟨s.reservation i, reservation_iff hs hr, hcall.talk_flying hs hq hx (hflying hf)⟩,
          fun hf => hcall.talk_settled hs hq hr hx (hsettled hf)⟩
      | held j =>
        cases hi.symm.trans (congrArg LoopState.slot? hx)
        exact ⟨fun hf => hcall.split_flying hs hq (.inl hx) (hflying hf), fun hf => hcall.held_settled hs (.inl hx) (hsettled hf)⟩
      | recalling j =>
        cases hi.symm.trans (congrArg LoopState.slot? hx)
        exact ⟨fun hf => hcall.split_flying hs hq (.inr (.inl hx)) (hflying hf), fun hf => hcall.held_settled hs (.inr hx) (hsettled hf)⟩
      | extend j =>
        cases hi.symm.trans (congrArg LoopState.slot? hx)
        exact ⟨fun hf => hcall.split_flying hs hq (.inr (.inr hx)) (hflying hf),
          fun hf => (hcall.extend_settled hs hq hr hx (hsettled hf)).1, fun hf => (hcall.extend_settled hs hq hr hx (hsettled hf)).2.1,
          fun hf => (hcall.extend_settled hs hq hr hx (hsettled hf)).2.2⟩
      | locked j =>
        cases hi.symm.trans (congrArg LoopState.slot? hx)
        exact ⟨fun e he hei => hcall.locked_flying ho hs hq hx he hei, fun hf => hcall.locked_settled hs hq hr hx (hsettled hf)⟩
  · exact congrArg _ (sampleCarrier_same h)
  · rw [exec_carrierLoss hc (by rw [hf]; exact nofun) (carrierLost_faulted hc hf)]
  · exact congrArg _ (sampleCarrier_same h)

end Sys2Proof
end
